-- ==== Sys2Proof/Word.lean ====
section
/-! DEFINITION. The words of the macadam timecode core: the widths of spec/00_scope.md R7. Every quantity is an unsigned
number with bit 0 least significant (R9). -/

namespace Sys2Proof

/-- A 32-bit word: COUNTER, USERBITS, RES[i] and the field inputs (00_scope.md R7). -/
abbrev Word32 := BitVec 32

/-- A 16-bit word: the nominal frame rate (00_scope.md R7). -/
abbrev Word16 := BitVec 16

/-- The command word, 8 bits (30_encoding.md R50). -/
abbrev CmdWord := BitVec 8

end Sys2Proof
end

