-- ==== Sys2Proof/Syntax.lean ====
section
/-! DEFINITION. The syntax of the core's commands: what a host presents on the ports (10_state.md R30), the ten commands
of the opcode map (30_encoding.md R56) with the operands of their assembly form (R61), and the two pseudo-commands
(R62). -/

namespace Sys2Proof

/-- The operand inputs that travel beside the command word (10_state.md R30). They are no state of the core. -/
structure Operands where
  /-- `fps_in`: nominal frame rate, used by LOAD. -/
  fpsIn : Word16
  /-- `h_in`: hours, used by LOAD. -/
  hIn : Word32
  /-- `m_in`: minutes, used by LOAD. -/
  mIn : Word32
  /-- `s_in`: seconds, used by LOAD. -/
  sIn : Word32
  /-- `f_in`: frames, used by LOAD. -/
  fIn : Word32
  /-- `ub_in`: user-bits payload, used by WRUB. -/
  ubIn : Word32
deriving DecidableEq, Repr

/-- Every operand input 0: what a listing shows for the inputs a command does not use (30_encoding.md R61). -/
def Operands.zero : Operands := ⟨0, 0, 0, 0, 0, 0⟩

/-- One command as the host presents it: the command word and the operand inputs sampled with it (30_encoding.md R50,
10_state.md R30). -/
structure Request where
  /-- The 8-bit command word `cmd`. -/
  cmd : CmdWord
  /-- The operand inputs at the accepting edge. -/
  operands : Operands
deriving DecidableEq, Repr

/-- The ten commands (30_encoding.md R56), one constructor per row of spec/opcode_table.json, each with the operands it
uses: bits of the command word (DF, FP, SEL) and operand inputs. -/
inductive Instr where
  /-- `NOP` (45_access.md R120). -/
  | nop
  /-- `LOAD fps, h, m, s, f, df, fp` (41_load_encode.md R85); `df` is `cmd[4]`, `fp` is `cmd[5]`. -/
  | load (df fp : Bool) (fpsIn : Word16) (hIn mIn sIn fIn : Word32)
  /-- `INCR` (43_increment.md R105). -/
  | incr
  /-- `DECODE` (42_decode.md R100). -/
  | decode
  /-- `TOBCD` (44_bcd.md R113). -/
  | tobcd
  /-- `RDFLAGS` (42_decode.md R101). -/
  | rdflags
  /-- `RDUB` (45_access.md R122). -/
  | rdub
  /-- `WRUB ub` (45_access.md R123). -/
  | wrub (ubIn : Word32)
  /-- `RDCNT` (45_access.md R121). -/
  | rdcnt
  /-- `RDRATE sel` (40_rate_table.md R75); `sel` is `cmd[6:4]`. -/
  | rdrate (sel : BitVec 3)
deriving DecidableEq, Repr

/-- The pseudo-command `NEW fps, df=D`: construction without explicit fields (30_encoding.md R62). -/
def Instr.newTimecode (fps : Word16) (df : Bool) : Instr := .load df false fps 0 0 0 0

/-- The pseudo-command `ADVANCE n`: `n` copies of INCR (30_encoding.md R62). -/
def Instr.advance (n : Nat) : List Instr := List.replicate n .incr

end Sys2Proof
end

