-- ==== Sys2Proof/WellFormed.lean ====
section
/-! DEFINITION. Which commands have an encoding. The operands of every command but RDRATE are used at full width without a
range check (30_encoding.md R55), so the one check is RDRATE's selector: SEL values 6 and 7 are illegal (R54, R57). -/

namespace Sys2Proof

/-- SEL names one of the six rate constants (30_encoding.md R54). -/
def selInRange (sel : BitVec 3) : Bool := sel.toNat ≤ 5

/-- The command has a legal encoding (30_encoding.md R57). -/
def WellFormed : Instr → Bool
  | .nop => true
  | .load _ _ _ _ _ _ _ => true
  | .incr => true
  | .decode => true
  | .tobcd => true
  | .rdflags => true
  | .rdub => true
  | .wrub _ => true
  | .rdcnt => true
  | .rdrate sel => selInRange sel

end Sys2Proof
end

