-- ==== Sys2Proof/Decode.lean ====
section
/-! DEFINITION. The encoding of the commands: decoding, total on every command word and rejecting by name, and the encoder
(30_encoding.md R50 to R57). -/

namespace Sys2Proof

/-- The opcode `OP = cmd[3:0]` (30_encoding.md R50). -/
def opcode (cmd : CmdWord) : BitVec 4 := cmd.extractLsb' 0 4

/-- Bits `cmd[7:4]`, which the format of the opcode interprets (30_encoding.md R50). -/
def formatBits (cmd : CmdWord) : BitVec 4 := cmd.extractLsb' 4 4

/-- Field `DF = cmd[4]` of format L (30_encoding.md R52). -/
def fieldDF (cmd : CmdWord) : Bool := cmd.getLsbD 4

/-- Field `FP = cmd[5]` of format L (30_encoding.md R53). -/
def fieldFP (cmd : CmdWord) : Bool := cmd.getLsbD 5

/-- Field `SEL = cmd[6:4]` of format R (30_encoding.md R54). -/
def fieldSEL (cmd : CmdWord) : BitVec 3 := cmd.extractLsb' 4 3

/-- Why a command word is illegal (30_encoding.md R57, 60_exceptions.md R131). The core reports all three as `ILLEGAL`. -/
inductive DecodeError where
  /-- `OP` is one of the reserved opcodes 0xA to 0xF (30_encoding.md R57). -/
  | reservedOpcode (op : BitVec 4)
  /-- A bit that the format shows as 0 is set (30_encoding.md R51). -/
  | reservedBits (cmd : CmdWord)
  /-- RDRATE with SEL 6 or 7 (30_encoding.md R54). -/
  | selOutOfRange (sel : BitVec 3)
deriving DecidableEq, Repr

/-- Format N: `cmd[7:4]` must be 0 (30_encoding.md R51). -/
def decodeFormatN (i : Instr) (cmd : CmdWord) : Except DecodeError Instr :=
  if formatBits cmd = 0 then .ok i else .error (.reservedBits cmd)

/-- Format L, the load command: `cmd[7:6]` must be 0 (30_encoding.md R51). -/
def decodeFormatL (r : Request) : Except DecodeError Instr :=
  if r.cmd.extractLsb' 6 2 = 0 then
    .ok (.load (fieldDF r.cmd) (fieldFP r.cmd) r.operands.fpsIn r.operands.hIn r.operands.mIn r.operands.sIn r.operands.fIn)
  else .error (.reservedBits r.cmd)

/-- Format R, the rate-constant read: `cmd[7]` must be 0 and SEL at most 5 (30_encoding.md R51, R54, R57). -/
def decodeFormatR (cmd : CmdWord) : Except DecodeError Instr :=
  if cmd.getLsbD 7 then .error (.reservedBits cmd)
  else if selInRange (fieldSEL cmd) then .ok (.rdrate (fieldSEL cmd))
  else .error (.selOutOfRange (fieldSEL cmd))

/-- The decoder: the command a request stands for, or the name of what makes its word illegal (30_encoding.md R56, R57). -/
def decodeRequest (r : Request) : Except DecodeError Instr :=
  match (opcode r.cmd).toNat with
  | 0 => decodeFormatN .nop r.cmd
  | 1 => decodeFormatL r
  | 2 => decodeFormatN .incr r.cmd
  | 3 => decodeFormatN .decode r.cmd
  | 4 => decodeFormatN .tobcd r.cmd
  | 5 => decodeFormatN .rdflags r.cmd
  | 6 => decodeFormatN .rdub r.cmd
  | 7 => decodeFormatN (.wrub r.operands.ubIn) r.cmd
  | 8 => decodeFormatN .rdcnt r.cmd
  | 9 => decodeFormatR r.cmd
  | _ => .error (.reservedOpcode (opcode r.cmd))

/-- `legal(cmd)` as 30_encoding.md R57 writes it out, a case on the opcode. -/
def legal (cmd : CmdWord) : Bool :=
  if opcode cmd = 0x0 ∨ opcode cmd = 0x2 ∨ opcode cmd = 0x3 ∨ opcode cmd = 0x4 ∨ opcode cmd = 0x5 ∨ opcode cmd = 0x6
      ∨ opcode cmd = 0x7 ∨ opcode cmd = 0x8 then formatBits cmd = 0b0000
  else if opcode cmd = 0x1 then cmd.extractLsb' 6 2 = 0b00
  else if opcode cmd = 0x9 then cmd.getLsbD 7 = false ∧ (fieldSEL cmd).toNat ≤ 5
  else false

/-- Whether an opcode needs the rate, the "needs rate" column of 30_encoding.md R56 (R58): INCR, DECODE, TOBCD, RDFLAGS
and RDRATE. -/
def needsRate (op : BitVec 4) : Bool :=
  op = 0x2 ∨ op = 0x3 ∨ op = 0x4 ∨ op = 0x5 ∨ op = 0x9

/-- A command word of format N (30_encoding.md R51). -/
def encodeFormatN (op : BitVec 4) : CmdWord := 0b0000#4 ++ op

/-- The encoder: the command word (30_encoding.md R51, R56) and the operand inputs, with every input the command does not
use 0 (R61). -/
def encode : Instr → Request
  | .nop => ⟨encodeFormatN 0x0, .zero⟩
  | .load df fp fpsIn hIn mIn sIn fIn =>
    ⟨0b00#2 ++ BitVec.ofBool fp ++ BitVec.ofBool df ++ 0x1#4, ⟨fpsIn, hIn, mIn, sIn, fIn, 0⟩⟩
  | .incr => ⟨encodeFormatN 0x2, .zero⟩
  | .decode => ⟨encodeFormatN 0x3, .zero⟩
  | .tobcd => ⟨encodeFormatN 0x4, .zero⟩
  | .rdflags => ⟨encodeFormatN 0x5, .zero⟩
  | .rdub => ⟨encodeFormatN 0x6, .zero⟩
  | .wrub ubIn => ⟨encodeFormatN 0x7, ⟨0, 0, 0, 0, 0, ubIn⟩⟩
  | .rdcnt => ⟨encodeFormatN 0x8, .zero⟩
  | .rdrate sel => ⟨0b0#1 ++ sel ++ 0x9#4, .zero⟩

/-- A request from one number: the command word in bits 7..0 and above it the operand inputs in the order of
10_state.md R30's table, `fps_in` from bit 8, `h_in` from 24, `m_in` from 56, `s_in` from 88, `f_in` from 120, `ub_in`
from 152. The core has no such layout (its inputs are separate ports): DESIGN CHOICE, log entry 3. -/
def Request.ofBits (w : Nat) : Request :=
  ⟨BitVec.ofNat 8 w,
    ⟨BitVec.ofNat 16 (w >>> 8), BitVec.ofNat 32 (w >>> 24), BitVec.ofNat 32 (w >>> 56), BitVec.ofNat 32 (w >>> 88),
      BitVec.ofNat 32 (w >>> 120), BitVec.ofNat 32 (w >>> 152)⟩⟩

/-- The request whose low `nbits` bits are `w`'s and whose other bits are 0. -/
def Request.ofTableWord (nbits w : Nat) : Request := Request.ofBits (w % 2 ^ nbits)

/-- The command the decoder reads from an instruction whose low `nbits` bits are `w` and whose other bits are 0, numbered
as spec/opcode_table.json numbers them. -/
def decodeTableWord (nbits w : Nat) : Option Instr := (decodeRequest (Request.ofTableWord nbits w)).toOption

end Sys2Proof
end

