-- ==== Sys2Proof/Machine/State.lean ====
section
/-! DEFINITION. The state of the core: the registers of 10_state.md R20, the registers of the valid/ready handshake
(10_state.md R35, 70_reset_and_hazards.md R155), and what the host will still present. -/

namespace Sys2Proof.Machine

/-- The status codes, "the only values `STATUS` takes" (60_exceptions.md R131). -/
inductive Status where
  /-- 0: the command completed. -/
  | ok
  /-- 1: reserved opcode, reserved bit set, or SEL > 5. -/
  | illegal
  /-- 2: LOAD with `fps_in = 0`. -/
  | badFps
  /-- 3: a command that needs the rate while `FPS = 0`. -/
  | unconfig
deriving DecidableEq, Repr

/-- The four result registers `RES[0]`..`RES[3]` (10_state.md R25). -/
structure Results where
  r0 : Word32
  r1 : Word32
  r2 : Word32
  r3 : Word32
deriving DecidableEq, Repr

/-- All four results 0 (00_scope.md R10). -/
def Results.zero : Results := ⟨0, 0, 0, 0⟩

/-- A result in `RES[0]`, the others 0 (00_scope.md R10: "Results not named are 0"). -/
def Results.single (v : Word32) : Results := ⟨v, 0, 0, 0⟩

/-- A command between acceptance and completion (10_state.md R34, R35): its sampled inputs, and how many edges away its
completing edge is (1: the next edge). -/
structure Flight where
  request : Request
  edgesLeft : Nat
deriving DecidableEq, Repr

/-- What the host does next at transaction level (60_exceptions.md R142): assert reset, or present a command and hold it
until it is accepted. -/
inductive HostEvent where
  /-- `rst = 1` at a rising edge (70_reset_and_hazards.md R150, R151). -/
  | reset
  /-- One command with its operand inputs, presented until accepted (10_state.md R35). -/
  | command (r : Request)
deriving DecidableEq, Repr

/-- The whole state of the core and of its port. -/
structure State where
  /-- `FPS`, nominal frame rate, 0 = unconfigured (10_state.md R21). -/
  fps : Word16
  /-- `DROP`, the drop-frame flag `isDropFrame` (10_state.md R22). -/
  drop : Bool
  /-- `COUNTER`, the frame count, or field count above 30 fps (10_state.md R23). -/
  counter : Word32
  /-- `USERBITS`, the opaque payload (10_state.md R24). -/
  userBits : Word32
  /-- `RES[0..3]`, results of the last command (10_state.md R25). -/
  res : Results
  /-- `STATUS`, status of the last command (10_state.md R26). -/
  status : Status
  /-- `cmd_ready`, a registered output (70_reset_and_hazards.md R155). -/
  cmdReady : Bool
  /-- `rsp_valid`, the one-cycle completion pulse (10_state.md R35). -/
  rspValid : Bool
  /-- The command in flight, at most one (10_state.md R34, R35). -/
  inFlight : Option Flight
  /-- The MODEL's own field: what the host will still present, in order (20_memory.md R44). DESIGN CHOICE, log entry 2. -/
  host : List HostEvent
deriving DecidableEq, Repr

/-- Faults of the core. There are none, so this type has no constructor: "it has no halt, no stuck state and no fault
state, and every accepted command completes" (70_reset_and_hazards.md R158, 60_exceptions.md R130). -/
inductive Fault where
deriving DecidableEq, Repr

/-- Refusals of the model. -/
inductive Refusal where
  /-- Raised only by an arm of `exec` for a command that has no meaning yet; no arm raises it now. Safe: the model stops
  where the core goes on. -/
  | notModelled (mnemonic : String)
deriving DecidableEq, Repr

/-- The state after reset (70_reset_and_hazards.md R150): every register 0, `STATUS = OK`, `rsp_valid = 0`,
`cmd_ready = 1`, no command in flight. The host has presented nothing yet (the model's own field, DESIGN CHOICE, unsafe: log
entry 2). -/
def State.reset : State :=
  { fps := 0
    drop := false
    counter := 0
    userBits := 0
    res := .zero
    status := .ok
    cmdReady := true
    rspValid := false
    inFlight := none
    host := [] }

end Sys2Proof.Machine
end

