-- ==== Sys2Proof/Machine/Ops.lean ====
section
/-! DEFINITION. The named operations over the registers, shared by every command: how a command ends (00_scope.md R10,
60_exceptions.md R132), the register writes, reset, and the handshake's register writes. Failing a command (`fail`) is
this core's one form of an exception: there is no trap entry and no return from one (60_exceptions.md R130, R137). -/

namespace Sys2Proof.Machine

/-- The 2-bit value of `STATUS` (60_exceptions.md R131). -/
def Status.code : Status → BitVec 2
  | .ok => 0
  | .illegal => 1
  | .badFps => 2
  | .unconfig => 3

/-- Writes `RES[0..3]` and `STATUS` together: every command ends with exactly this (30_encoding.md R60). -/
def State.finish (code : Status) (r : Results) (s : State) : State := { s with res := r, status := code }

/-- `done(r0, r1, r2, r3)`: the command ends successfully (00_scope.md R10). -/
def done (r : Results) (s : State) : State := s.finish .ok r

/-- `fail(code)`: the command ends precisely, with `RES[0..3] <- 0`, `STATUS <- code` and no other register written
(60_exceptions.md R132). -/
def fail (code : Status) (s : State) : State := s.finish code .zero

/-- The writes of a successful LOAD: the whole timecode is replaced and the user bits cleared (41_load_encode.md R85). -/
def State.construct (fps : Word16) (df : Bool) (count : Word32) (s : State) : State :=
  { s with fps := fps, drop := df, counter := count, userBits := 0 }

/-- `COUNTER <- v`. -/
def State.setCounter (v : Word32) (s : State) : State := { s with counter := v }

/-- `USERBITS <- v`, all 32 bits (20_memory.md R42). -/
def State.setUserBits (v : Word32) (s : State) : State := { s with userBits := v }

/-- The unconfigured state, before the first successful LOAD (10_state.md R21). -/
abbrev State.Unconfigured (s : State) : Prop := s.fps = 0

/-- The check of a command that needs the rate (30_encoding.md R58, R59): `UNCONFIG` while unconfigured, else the
command's own next state. -/
def guardRate (s t : State) : Host.Outcome State Fault Refusal :=
  if s.Unconfigured then .next (fail .unconfig s) else .next t

/-- Every register at its reset value; a command in flight is discarded (70_reset_and_hazards.md R150, R151). What the
host will present is not the core's to change. That `cmd_ready` reads 1 already while `rst` is held is DEDUCED, unsafe: log
entry 9. -/
def State.resetRegisters (s : State) : State := { State.reset with host := s.host }

/-- What the host will present from now on. -/
def State.setHost (h : List HostEvent) (s : State) : State := { s with host := h }

/-- The accepting edge: the inputs are sampled and `cmd_ready` falls (10_state.md R35, 70_reset_and_hazards.md R155). -/
def State.accept (r : Request) (edges : Nat) (s : State) : State :=
  { s with cmdReady := false, rspValid := false, inFlight := some ⟨r, edges⟩ }

/-- An edge inside a command's flight that is not its completing edge. -/
def State.wait (r : Request) (edges : Nat) (s : State) : State :=
  { s with rspValid := false, inFlight := some ⟨r, edges⟩ }

/-- An edge at which nothing is accepted and nothing completes: a pulse of `rsp_valid` ends (10_state.md R35). -/
def State.idle (s : State) : State := { s with rspValid := false }

/-- The handshake's part of a completing edge: `cmd_ready = 1` together with the one-cycle `rsp_valid` pulse
(70_reset_and_hazards.md R155). -/
def State.respond (s : State) : State := { s with cmdReady := true, rspValid := true, inFlight := none }

/-- Applies `f` to a next state and passes a stop on. -/
def mapNext (f : State → State) : Host.Outcome State Fault Refusal → Host.Outcome State Fault Refusal
  | .next s => .next (f s)
  | .fault r => .fault r
  | .refused r => .refused r

end Sys2Proof.Machine
end

