-- ==== Sys2Proof/Machine/Access.lean ====
section
/-! DEFINITION. NOP, RDCNT, RDUB and WRUB (45_access.md R120 to R124): legal whether the core is configured or not. -/

namespace Sys2Proof.Machine

/-- `NOP` (45_access.md R120): clears RES and sets STATUS to OK. R120 calls it "the only way to clear an error status";
the other commands that succeed write OK as well (DEDUCED, safe: log entry 6). -/
def execNop (s : State) : Host.Outcome State Fault Refusal := .next (done .zero s)

/-- `RDUB` (45_access.md R122). -/
def execRdub (s : State) : Host.Outcome State Fault Refusal := .next (done (.single s.userBits) s)

/-- `WRUB ub` (45_access.md R123). -/
def execWrub (ubIn : Word32) (s : State) : Host.Outcome State Fault Refusal := .next (done .zero (s.setUserBits ubIn))

/-- `RDCNT` (45_access.md R121). -/
def execRdcnt (s : State) : Host.Outcome State Fault Refusal := .next (done (.single s.counter) s)

end Sys2Proof.Machine
end

