-- ==== Sys2Proof/Machine/Operands.lean ====
section
/-! DEFINITION. Operand forms: truncation of an exact result and the placing of results (00_scope.md R9, 30_encoding.md
R55). Operand inputs themselves are used as unsigned numbers of their own width, with no extension, truncation or range
check (R55): that is `BitVec.toNat`. -/

namespace Sys2Proof.Machine

/-- `trunc_4(v) = v mod 2^4` (00_scope.md R9). -/
def trunc4 (v : Nat) : BitVec 4 := BitVec.ofNat 4 v

/-- `trunc_32(v) = v mod 2^32` (00_scope.md R9); on a value below 2^32 it is also the placing of that value in a 32-bit
register. -/
def trunc32 (v : Nat) : Word32 := BitVec.ofNat 32 v

/-- `zext_32(v)` (00_scope.md R9). -/
def zext32 {n : Nat} (v : BitVec n) : Word32 := v.setWidth 32

/-- The value of a one-bit input as a number (30_encoding.md R55). -/
def bitValue (b : Bool) : Nat := b.toNat

end Sys2Proof.Machine
end

