-- ==== Sys2Proof/Machine/Flags.lean ====
section
/-! DEFINITION. The two status flags (10_state.md R32), both read only through RDFLAGS: `isDropFrame`, which is DROP, and
the field mark, which no register holds (R28). -/

namespace Sys2Proof.Machine

/-- `fieldMark = (FPS > 30) and (COUNTER[0] = 1)` (10_state.md R28). -/
def fieldMarkOf (fps : Word16) (counter : Word32) : Bool := decide (fps.toNat > 30) && counter.getLsbD 0

/-- The field mark of a state: derived, never stored (10_state.md R28). -/
def State.fieldMark (s : State) : Bool := fieldMarkOf s.fps s.counter

/-- `zext_32({fieldMark, DROP})`: bit 0 is `isDropFrame`, bit 1 is `fieldMark` (42_decode.md R101). -/
def flagsWord (fieldMark drop : Bool) : Word32 := zext32 (BitVec.ofBool fieldMark ++ BitVec.ofBool drop)

end Sys2Proof.Machine
end

