-- ==== Sys2Proof/Machine/RateTable.lean ====
section
/-! DEFINITION. The sub-block framerate_constant_table and RDRATE (40_rate_table.md R70 to R76). -/

namespace Sys2Proof.Machine

/-- The six rate constants, exact integers (40_rate_table.md R71). -/
structure RateConsts where
  /-- `scaledFps`. -/
  sf : Nat
  /-- `framesPerHour`. -/
  fph : Nat
  /-- `framesPerMinute`. -/
  fpm : Nat
  /-- `dropFramesPerMinute`. -/
  dfpm : Nat
  /-- `dropFramesPer10Min`. -/
  dfp10 : Nat
  /-- `dropFramesPerHour`. -/
  dfph : Nat
deriving DecidableEq, Repr

/-- `scaledFps`: the nominal rate if at most 30, else half of it, rounded down (40_rate_table.md R71, R73). -/
def scaledFps (fps : Nat) : Nat := if fps ≤ 30 then fps else fps / 2

/-- `dropFramesPerMinute` of a scaled rate (40_rate_table.md R71). -/
def dropFramesPerMinute (sf : Nat) : Nat := sf * 60 - 2

/-- `dropFramesPer10Min` of a scaled rate: nine short minutes and one full minute (40_rate_table.md R71). -/
def dropFramesPer10Min (sf : Nat) : Nat := dropFramesPerMinute sf * 9 + sf * 60

/-- `rateConsts(fps)` for fps in 1..65535 (40_rate_table.md R71). -/
def rateConsts (fps : Nat) : RateConsts :=
  { sf := scaledFps fps
    fph := scaledFps fps * 3600
    fpm := scaledFps fps * 60
    dfpm := dropFramesPerMinute (scaledFps fps)
    dfp10 := dropFramesPer10Min (scaledFps fps)
    dfph := dropFramesPer10Min (scaledFps fps) * 6 }

/-- `rateConsts(fps)[sel]` for sel in 0..5 (30_encoding.md R54); no legal command names another selector. -/
def RateConsts.select (c : RateConsts) (sel : BitVec 3) : Nat :=
  match sel.toNat with
  | 0 => c.sf
  | 1 => c.fph
  | 2 => c.fpm
  | 3 => c.dfpm
  | 4 => c.dfp10
  | _ => c.dfph

/-- `RDRATE sel` (40_rate_table.md R75): `ILLEGAL` when SEL > 5, before any other check (60_exceptions.md R136);
`UNCONFIG` while FPS = 0; else the selected constant. That a selector no legal word carries fails here too is DEDUCED, safe:
log entry 8. -/
def execRdrate (sel : BitVec 3) (s : State) : Host.Outcome State Fault Refusal :=
  if selInRange sel then guardRate s (done (.single (trunc32 ((rateConsts s.fps.toNat).select sel))) s)
  else .next (fail .illegal s)

end Sys2Proof.Machine
end

