-- ==== Sys2Proof/Machine/TimecodeEncoder.lean ====
section
/-! DEFINITION. The sub-block timecode_encoder, count to fields, with DECODE and RDFLAGS (42_decode.md R90 to R103). The
source calls this direction "decode": 90_conflicts.md C1. -/

namespace Sys2Proof.Machine

/-- Decoded fields `(h, m, s, f)`, exact integers (42_decode.md R90). -/
structure Fields where
  h : Nat
  m : Nat
  s : Nat
  f : Nat
deriving DecidableEq, Repr

/-- Step 1: the base, a count of displayed frames (42_decode.md R91). -/
def countToBase (fps cnt : Nat) : Nat := if fps > 30 then cnt / 2 else cnt

/-- Step 2, the non-drop-frame path (42_decode.md R92). -/
def baseToFields (fps base : Nat) : Fields :=
  { h := base / (rateConsts fps).sf / 60 / 60
    m := base / (rateConsts fps).sf / 60 % 60
    s := base / (rateConsts fps).sf % 60
    f := base % (rateConsts fps).sf }

/-- One of the nine short minutes of a decade, from the remainder `r` inside it (42_decode.md R93); the comparison is on
exact integers (R94). -/
def shortMinuteFields (sf h m r : Nat) : Fields :=
  if r + 2 < sf then { h := h, m := m, s := 0, f := r + 2 }
  else { h := h, m := m, s := (r + 2) / sf, f := (r + 2) % sf }

/-- Inside the decade number `major` of hour `h`, from the remainder `r` inside the decade: its first, full minute or one
of its nine short minutes (42_decode.md R93). -/
def decadeFields (fps h major r : Nat) : Fields :=
  if r < (rateConsts fps).fpm then
    { h := h, m := major * 10, s := r / (rateConsts fps).sf, f := r % (rateConsts fps).sf }
  else
    shortMinuteFields (rateConsts fps).sf h (major * 10 + (r - (rateConsts fps).fpm) / (rateConsts fps).dfpm + 1)
      ((r - (rateConsts fps).fpm) % (rateConsts fps).dfpm)

/-- Step 3, the drop-frame path (42_decode.md R93). -/
def baseToDropFields (fps base : Nat) : Fields :=
  decadeFields fps (base / (rateConsts fps).dfph) (base % (rateConsts fps).dfph / (rateConsts fps).dfp10)
    (base % (rateConsts fps).dfph % (rateConsts fps).dfp10)

/-- `countToFields(fps, df, cnt)` (42_decode.md R90 to R93). -/
def countToFields (fps : Nat) (df : Bool) (cnt : Nat) : Fields :=
  if df then baseToDropFields fps (countToBase fps cnt) else baseToFields fps (countToBase fps cnt)

/-- The fields of the current timecode, computed when asked for (00_scope.md R14). -/
def State.fields (s : State) : Fields := countToFields s.fps.toNat s.drop s.counter.toNat

/-- The four fields in the four result registers (42_decode.md R100). Each is below 2^32 (R96). -/
def Fields.results (t : Fields) : Results := ⟨trunc32 t.h, trunc32 t.m, trunc32 t.s, trunc32 t.f⟩

/-- `DECODE` (42_decode.md R100): hours past 23 are returned unchanged (R99) and no field is masked. -/
def execDecode (s : State) : Host.Outcome State Fault Refusal := guardRate s (done s.fields.results s)

/-- `RDFLAGS` (42_decode.md R101). -/
def execRdflags (s : State) : Host.Outcome State Fault Refusal :=
  guardRate s (done (.single (flagsWord s.fieldMark s.drop)) s)

/-- A missing drop-frame label: `df = 1`, `m mod 10 != 0` and `s * sf + f < 2` (41_load_encode.md R86). -/
abbrev MissingLabel (fps : Nat) (df : Bool) (m s f : Nat) : Prop :=
  df = true ∧ m % 10 ≠ 0 ∧ s * (rateConsts fps).sf + f < 2

/-- A valid label for `(fps, df)` (42_decode.md R97). Hours are not bounded. -/
abbrev ValidLabel (fps : Nat) (df : Bool) (m s f : Nat) : Prop :=
  m < 60 ∧ s < 60 ∧ f < (rateConsts fps).sf ∧ ¬ MissingLabel fps df m s f

end Sys2Proof.Machine
end

