-- ==== Sys2Proof/Machine/Bcd.lean ====
section
/-! DEFINITION. The sub-block bcd_converter and TOBCD (44_bcd.md R110 to R115). -/

namespace Sys2Proof.Machine

/-- `digits(v) = { trunc_4(v div 10), v mod 10 }` (44_bcd.md R111). -/
def bcdDigits (v : Nat) : BitVec 8 := trunc4 (v / 10) ++ trunc4 (v % 10)

/-- `toBCD(h, m, s, f)`: hours in bits 31:24, most significant nibble first (44_bcd.md R110, R111). -/
def toBcd (t : Fields) : Word32 := bcdDigits t.h ++ bcdDigits t.m ++ bcdDigits t.s ++ bcdDigits t.f

/-- `TOBCD` (44_bcd.md R113): no check and no status for a field above 99 (R112). -/
def execTobcd (s : State) : Host.Outcome State Fault Refusal := guardRate s (done (.single (toBcd s.fields)) s)

end Sys2Proof.Machine
end

