-- ==== Sys2Proof/Machine/Increment.lean ====
section
/-! DEFINITION. INCR (43_increment.md R105 to R108). -/

namespace Sys2Proof.Machine

/-- `INCR` (43_increment.md R105): `COUNTER <- trunc_32(COUNTER + 1)`, wrapping at 2^32 (R106) and not at 24 hours
(R107). -/
def execIncr (s : State) : Host.Outcome State Fault Refusal :=
  guardRate s (done .zero (s.setCounter (trunc32 (s.counter.toNat + 1))))

end Sys2Proof.Machine
end

