-- ==== Sys2Proof/Machine/TimecodeDecoder.lean ====
section
/-! DEFINITION. The sub-block timecode_decoder, fields to count, and LOAD (41_load_encode.md R80 to R87). The source calls
this direction "encode": 90_conflicts.md C1. -/

namespace Sys2Proof.Machine

/-- Steps 1 and 2 of 41_load_encode.md R81: the base, a count of displayed frames, exact. -/
def fieldsToBase (fps : Nat) (df : Bool) (h m s f : Nat) : Nat :=
  (if df then h * (rateConsts fps).dfph + m / 10 * (rateConsts fps).dfp10 + m % 10 * (rateConsts fps).dfpm
    else h * (rateConsts fps).fph + m * (rateConsts fps).fpm)
  + (s * (rateConsts fps).sf + f)

/-- Steps 1 to 3 of 41_load_encode.md R81: the exact count, before truncation. The condition is on the nominal rate. -/
def exactCount (fps : Nat) (df : Bool) (h m s f : Nat) (fp : Bool) : Nat :=
  if fps > 30 then fieldsToBase fps df h m s f * 2 + bitValue fp else fieldsToBase fps df h m s f

/-- `fieldsToCount(fps, df, h, m, s, f, fp)`: the exact count modulo 2^32; no input is checked or masked
(41_load_encode.md R81, R82, R83). -/
def fieldsToCount (fps : Nat) (df : Bool) (h m s f : Nat) (fp : Bool) : Word32 := trunc32 (exactCount fps df h m s f fp)

/-- `LOAD` (41_load_encode.md R85): `BADFPS` when `fps_in = 0`, with every register kept (60_exceptions.md R134); else a
new timecode. -/
def execLoad (df fp : Bool) (fpsIn : Word16) (hIn mIn sIn fIn : Word32) (s : State) :
    Host.Outcome State Fault Refusal :=
  if fpsIn = 0 then .next (fail .badFps s)
  else
    .next (done .zero
      (s.construct fpsIn df (fieldsToCount fpsIn.toNat df hIn.toNat mIn.toNat sIn.toNat fIn.toNat fp)))

end Sys2Proof.Machine
end

