-- ==== Sys2Proof/Machine/Dispatch.lean ====
section
/-! DEFINITION. The meaning of every command, one arm per constructor (30_encoding.md R59). -/

namespace Sys2Proof.Machine

def exec (i : Instr) (s : State) : Host.Outcome State Fault Refusal :=
  match i with
  | .nop => Sys2Proof.Machine.execNop s
  | .load df fp fpsIn hIn mIn sIn fIn => Sys2Proof.Machine.execLoad df fp fpsIn hIn mIn sIn fIn s
  | .incr => Sys2Proof.Machine.execIncr s
  | .decode => Sys2Proof.Machine.execDecode s
  | .tobcd => Sys2Proof.Machine.execTobcd s
  | .rdflags => Sys2Proof.Machine.execRdflags s
  | .rdub => Sys2Proof.Machine.execRdub s
  | .wrub ubIn => Sys2Proof.Machine.execWrub ubIn s
  | .rdcnt => Sys2Proof.Machine.execRdcnt s
  | .rdrate sel => Sys2Proof.Machine.execRdrate sel s

end Sys2Proof.Machine
end

