-- ==== Sys2Proof/Machine/Transaction.lean ====
section
/-! DEFINITION. The transaction level (00_scope.md R8): the command step of 30_encoding.md R59, the completion of a
command, and what one event of the host does. Machine/Step.lean calls `hostStep`. -/

namespace Sys2Proof.Machine

/-- The command step of 30_encoding.md R59 on the registers of 10_state.md R20: an illegal word fails with `ILLEGAL`
before anything else (60_exceptions.md R136), every other word does what its command means. -/
def perform (r : Request) (s : State) : Host.Outcome State Fault Refusal :=
  match decodeRequest r with
  | .ok i => exec i s
  | .error _ => .next (fail .illegal s)

/-- A command completes: its effects on the registers together with the response (10_state.md R35,
70_reset_and_hazards.md R155). -/
def complete (r : Request) (s : State) : Host.Outcome State Fault Refusal := mapNext State.respond (perform r s)

/-- One step at transaction level. A reset dominates, also with a command in flight (70_reset_and_hazards.md R151); a
command in flight completes before the next one is accepted (20_memory.md R44); else the host's next command is accepted
and completes as one indivisible step (00_scope.md R8, R156); with nothing to do the core stays idle
(70_reset_and_hazards.md R158). The grain of the step and the order of these cases are DEDUCED, safe: log entry 4. -/
def hostStep (s : State) : Host.Outcome State Fault Refusal :=
  match s.host, s.inFlight with
  | .reset :: rest, _ => .next (s.setHost rest).resetRegisters
  | _, some flight => complete flight.request s
  | .command r :: rest, none => complete r (s.setHost rest)
  | [], none => .next s.idle

/-- The commands of a run one after another, each seeing every write of the ones before (20_memory.md R44,
70_reset_and_hazards.md R158). -/
def performAll : List Request → State → Host.Outcome State Fault Refusal
  | [], s => .next s
  | r :: rs, s =>
    match perform r s with
    | .next t => performAll rs t
    | .fault e => .fault e
    | .refused e => .refused e

end Sys2Proof.Machine
end

