-- ==== Sys2Proof/Machine/Step.lean ====
section
/-! DEFINITION. The step of the machine, and how one command is placed so that the very next step runs it. The core
fetches nothing (10_state.md R29): its program is the sequence of commands the host presents, so a program is placed in
the host's field. -/

namespace Sys2Proof.Machine

/-- One step: one event of the host, a whole command being one indivisible step (00_scope.md R8). -/
def step (s : State) : Host.Outcome State Fault Refusal := hostStep s

/-- Places one command as the next thing the host presents (DESIGN CHOICE, safe: log entries 3 and 4): the command whose low `nbits` bits are `w` and whose other bits (operand inputs) are 0. -/
def State.withFetchWord (s : State) (nbits w : Nat) : State :=
  { s with host := .command (Request.ofTableWord nbits w) :: s.host, inFlight := none, cmdReady := true }

end Sys2Proof.Machine
end

