-- ==== Sys2Proof/Machine/Assembler.lean ====
section
/-! DEFINITION. The assembler of command programs: one command per line (30_encoding.md R61), with the pseudo-commands NEW
and ADVANCE expanded before encoding (R62). It is a tool beside the core; no step of the core reads its text. What the
spec leaves open about the text is DESIGN CHOICE, safe: log entry 5. -/

namespace Sys2Proof.Machine

/-- The value of a digit in base 10 or 16, or none. -/
def asmDigit (base : Nat) (c : Char) : Option Nat :=
  if 48 ≤ c.toNat ∧ c.toNat ≤ 57 then some (c.toNat - 48)
  else if base = 16 ∧ 97 ≤ c.toNat ∧ c.toNat ≤ 102 then some (c.toNat - 87)
  else if base = 16 ∧ 65 ≤ c.toNat ∧ c.toNat ≤ 70 then some (c.toNat - 55)
  else none

/-- The value of a row of digits, after `acc`. -/
def asmDigits (base : Nat) : Nat → List Char → Option Nat
  | acc, [] => some acc
  | acc, c :: cs =>
    match asmDigit base c with
    | some d => asmDigits base (acc * base + d) cs
    | none => none

/-- "Numbers are decimal, or hexadecimal with a `0x` prefix" (30_encoding.md R61). -/
def asmNumber : List Char → Option Nat
  | [] => none
  | '0' :: 'x' :: c :: cs => asmDigits 16 0 (c :: cs)
  | c :: cs => asmDigits 10 0 (c :: cs)

/-- A number that fits the operand's width; a larger one is rejected (log entry 5). -/
def asmWord (n : Nat) (cs : List Char) : Option (BitVec n) :=
  match asmNumber cs with
  | some v => if v < 2 ^ n then some (BitVec.ofNat n v) else none
  | none => none

/-- White space of a line. -/
def asmSpace (c : Char) : Bool := c = ' ' ∨ c = '\t'

/-- A word without white space around it. -/
def asmTrim (cs : List Char) : List Char := ((cs.dropWhile asmSpace).reverse.dropWhile asmSpace).reverse

/-- The pieces between commas. -/
def asmSplit : List Char → List (List Char)
  | [] => [[]]
  | c :: cs =>
    if c = ',' then [] :: asmSplit cs
    else
      match asmSplit cs with
      | [] => [[c]]
      | w :: ws => (c :: w) :: ws

/-- The operands of a line, separated by commas (30_encoding.md R61). -/
def asmOperands (cs : List Char) : List (List Char) :=
  if asmTrim cs = [] then [] else (asmSplit cs).map asmTrim

/-- `df=D`, D in {0,1} (30_encoding.md R61). -/
def asmDf : List Char → Option Bool
  | ['d', 'f', '=', '0'] => some false
  | ['d', 'f', '=', '1'] => some true
  | _ => none

/-- `fp=P`, P in {0,1} (30_encoding.md R61). -/
def asmFp : List Char → Option Bool
  | ['f', 'p', '=', '0'] => some false
  | ['f', 'p', '=', '1'] => some true
  | _ => none

/-- The optional flags of LOAD, default 0 (30_encoding.md R61). -/
def asmFlags : List (List Char) → Option (Bool × Bool)
  | [] => some (false, false)
  | [a] =>
    match asmDf a with
    | some d => some (d, false)
    | none => (asmFp a).map fun p => (false, p)
  | [a, b] =>
    match asmDf a, asmFp b with
    | some d, some p => some (d, p)
    | _, _ => none
  | _ => none

/-- A field of LOAD that the line leaves out is 0 (30_encoding.md R61: "h = m = s = f = 0"). -/
def asmField : Option (List Char) → Option Word32
  | none => some 0
  | some cs => asmWord 32 cs

/-- `LOAD fps, h, m, s, f [, df=D] [, fp=P]` (30_encoding.md R61). -/
def asmLoad (ops : List (List Char)) : Option Instr :=
  match ops.takeWhile (fun w => !w.contains '='), asmFlags (ops.dropWhile (fun w => !w.contains '=')) with
  | fps :: fields, some (df, fp) =>
    if fields.length ≤ 4 then
      match asmWord 16 fps, asmField fields[0]?, asmField fields[1]?, asmField fields[2]?, asmField fields[3]? with
      | some fps, some h, some m, some s, some f => some (.load df fp fps h m s f)
      | _, _, _, _, _ => none
    else none
  | _, _ => none

/-- `sel` of RDRATE: a number, or one of the names of 30_encoding.md R61. Numbers 6 and 7 assemble to an illegal word
(R63). -/
def asmSel : List Char → Option (BitVec 3)
  | ['s', 'f'] => some 0
  | ['f', 'p', 'h'] => some 1
  | ['f', 'p', 'm'] => some 2
  | ['d', 'f', 'p', 'm'] => some 3
  | ['d', 'f', 'p', '1', '0'] => some 4
  | ['d', 'f', 'p', 'h'] => some 5
  | cs => asmWord 3 cs

/-- `NEW fps [, df=D]` (30_encoding.md R62). -/
def asmNew : List (List Char) → Option Instr
  | [fps] => (asmWord 16 fps).map fun f => Instr.newTimecode f false
  | [fps, df] =>
    match asmWord 16 fps, asmDf df with
    | some f, some d => some (Instr.newTimecode f d)
    | _, _ => none
  | _ => none

/-- One line's commands, from its mnemonic and its operands (30_encoding.md R61, R62). -/
def asmCommand (mnemonic : List Char) (ops : List (List Char)) : Option (List Instr) :=
  match mnemonic, ops with
  | ['N', 'O', 'P'], [] => some [.nop]
  | ['L', 'O', 'A', 'D'], ops => (asmLoad ops).map fun i => [i]
  | ['I', 'N', 'C', 'R'], [] => some [.incr]
  | ['D', 'E', 'C', 'O', 'D', 'E'], [] => some [.decode]
  | ['T', 'O', 'B', 'C', 'D'], [] => some [.tobcd]
  | ['R', 'D', 'F', 'L', 'A', 'G', 'S'], [] => some [.rdflags]
  | ['R', 'D', 'U', 'B'], [] => some [.rdub]
  | ['W', 'R', 'U', 'B'], [ub] => (asmWord 32 ub).map fun v => [.wrub v]
  | ['R', 'D', 'C', 'N', 'T'], [] => some [.rdcnt]
  | ['R', 'D', 'R', 'A', 'T', 'E'], [sel] => (asmSel sel).map fun v => [.rdrate v]
  | ['N', 'E', 'W'], ops => (asmNew ops).map fun i => [i]
  | ['A', 'D', 'V', 'A', 'N', 'C', 'E'], [n] => (asmNumber n).map Instr.advance
  | _, _ => none

/-- One line of an assembly program: "with the mnemonic first and operands separated by commas" (30_encoding.md R61). -/
def assembleLine (line : List Char) : Option (List Instr) :=
  asmCommand ((asmTrim line).takeWhile (fun c => !asmSpace c)) (asmOperands ((asmTrim line).dropWhile (fun c => !asmSpace c)))

/-- A program of lines, as the commands it stands for (30_encoding.md R61). -/
def assemble : List (List Char) → Option (List Instr)
  | [] => some []
  | l :: ls =>
    match assembleLine l, assemble ls with
    | some is, some js => some (is ++ js)
    | _, _ => none

/-- What the host presents for a program of commands (30_encoding.md R61: each with its unused inputs 0). -/
def presentAll (is : List Instr) : List HostEvent := is.map fun i => .command (encode i)

end Sys2Proof.Machine
end

