-- ==== Sys2Proof/Config.lean ====
section
/-! DEFINITION. What an implementation of the core fixes and the spec leaves open: the latency alone (00_scope.md R7,
70_reset_and_hazards.md R156). Nothing can evaluate it, so a theorem that mentions it holds for every implementation. -/

namespace Sys2Proof

/-- How many edges beyond the one that rule R156 demands an implementation takes between acceptance and completion, for
each opcode `cmd[3:0]` ("at least 1", "for each opcode it is a fixed bound that does not depend on the operand values",
70_reset_and_hazards.md R156; "fixed per opcode, independent of operands", 92_eei_decisions.md D18). A free value, keyed
for illegal words too by their low four bits (DEDUCED, safe): log entry 1. -/
opaque Config.extraLatency : BitVec 4 → Nat

end Sys2Proof
end

