-- ==== Sys2Proof/Machine/Handshake.lean ====
section
/-! DEFINITION. The cycle level: the ports (10_state.md R35) and what one rising edge of `clk` does, with the valid/ready
handshake (70_reset_and_hazards.md R155), LATENCY (R156) and reset (R150, R151). It acts on the same State as the
transaction level and calls the same command step. -/

namespace Sys2Proof.Machine

/-- The input ports as they stand at one rising edge of `clk` (10_state.md R35). -/
structure PortsIn where
  /-- `rst`, synchronous reset, active high. -/
  rst : Bool
  /-- `cmd_valid`: the host presents a command. -/
  cmdValid : Bool
  /-- `cmd` and the operand inputs. -/
  request : Request
deriving DecidableEq, Repr

/-- The output ports (10_state.md R35). -/
structure PortsOut where
  cmdReady : Bool
  rspValid : Bool
  status : BitVec 2
  res0 : Word32
  res1 : Word32
  res2 : Word32
  res3 : Word32
deriving DecidableEq, Repr

/-- The outputs show the registers at every cycle (10_state.md R35). -/
def State.outputs (s : State) : PortsOut :=
  { cmdReady := s.cmdReady
    rspValid := s.rspValid
    status := s.status.code
    res0 := s.res.r0
    res1 := s.res.r1
    res2 := s.res.r2
    res3 := s.res.r3 }

/-- `LATENCY` of a command word: at least 1, fixed per opcode, otherwise free (70_reset_and_hazards.md R156; log
entry 1). -/
def latency (cmd : CmdWord) : Nat := 1 + Config.extraLatency (opcode cmd)

/-- One rising edge of `clk`. With `rst = 1` the core is reset (R150, R151). A command in flight completes at its
completing edge and otherwise comes one edge nearer to it. With none in flight a command is accepted when `cmd_valid` and
`cmd_ready` are 1 (10_state.md R35). -/
def clockEdge (p : PortsIn) (s : State) : Host.Outcome State Fault Refusal :=
  if p.rst then .next s.resetRegisters
  else
    match s.inFlight with
    | some flight =>
      if flight.edgesLeft ≤ 1 then complete flight.request s
      else .next (s.wait flight.request (flight.edgesLeft - 1))
    | none =>
      if p.cmdValid && s.cmdReady then .next (s.accept p.request (latency p.request.cmd)) else .next s.idle

/-- A sequence of rising edges, stopping at the first that gives no next state. -/
def clockEdges : List PortsIn → State → Host.Outcome State Fault Refusal
  | [], s => .next s
  | p :: ps, s =>
    match clockEdge p s with
    | .next t => clockEdges ps t
    | .fault r => .fault r
    | .refused r => .refused r

end Sys2Proof.Machine
end

