-- ==== Sys2Proof/Safety.lean ====
section
/-! DEFINITION. What a good state and a safe run are, in the terms the statements use. -/

namespace Sys2Proof.Machine

/-- While the core is unconfigured no timecode stands in it: "`FPS = 0` holds exactly from reset until the first successful
`LOAD`" (10_state.md R21), and RDCNT "is legal when unconfigured, and it then returns 0" (45_access.md R121). -/
abbrev State.BlankWhenUnconfigured (s : State) : Prop := s.fps = 0 → s.counter = 0 ∧ s.drop = false

/-- After a failed command the results are 0 (60_exceptions.md R132). -/
abbrev State.FailureClearsResults (s : State) : Prop := s.status ≠ .ok → s.res = .zero

/-- `UNCONFIG` is reported only "after reset and before the first successful `LOAD`" (60_exceptions.md R133). -/
abbrev State.UnconfigMeansNoRate (s : State) : Prop := s.status = .unconfig → s.fps = 0

/-- `cmd_ready` is 0 exactly while a command is in flight, its completing edge lies ahead, and no response is given during
the flight (10_state.md R35, 70_reset_and_hazards.md R155). -/
abbrev State.HandshakeConsistent (s : State) : Prop :=
  s.cmdReady = s.inFlight.isNone ∧ (s.inFlight.all fun flight => decide (1 ≤ flight.edgesLeft)) = true ∧
    (s.inFlight.isSome = true → s.rspValid = false)

/-- The invariant of the core: it holds at reset and every step and every clock edge keeps it. -/
abbrev State.Inv (s : State) : Prop :=
  s.BlankWhenUnconfigured ∧ s.FailureClearsResults ∧ s.UnconfigMeansNoRate ∧ s.HandshakeConsistent

/-- An outcome that is a next state: the core "never stops by itself" (70_reset_and_hazards.md R158). -/
abbrev GoesOn (o : Host.Outcome State Fault Refusal) : Prop := ∃ t, o = .next t

/-- The label one displayed frame later: the next frame of the second, else the next second, else the next minute, which
in drop-frame starts at frame 2 unless its number is a multiple of 10 ("skips frame numbers 0 and 1 at the start of every
minute except multiples of 10", 00_scope.md R12). Hours are not bounded (43_increment.md R107). For `sf` of at least 3. -/
def Fields.following (sf : Nat) (df : Bool) (t : Fields) : Fields :=
  if t.f + 1 < sf then { t with f := t.f + 1 }
  else if t.s < 59 then { t with s := t.s + 1, f := 0 }
  else if t.m < 59 then { h := t.h, m := t.m + 1, s := 0, f := if df ∧ (t.m + 1) % 10 ≠ 0 then 2 else 0 }
  else { h := t.h + 1, m := 0, s := 0, f := 0 }

end Sys2Proof.Machine
end

