-- ==== Sys2Proof/Certificates/Slice0/Obligations.lean ====
section
/-! DEFINITION. The statements for the provers. Each docstring names the rules of spec/ it formalises or rests on. A next
state written `{ s with … }` states the frame: every register it does not name is unchanged. -/

open Sys2Proof Sys2Proof.Machine

/-! ### Encoding -/

/-- Decoding an encoded well-formed command gives it back, with every operand at every value (30_encoding.md R51 to R56). -/
def Obligations.DecodeEncodeRoundTrip : Prop :=
  ∀ i : Instr, WellFormed i = true → decodeRequest (encode i) = .ok i

/-- A decoded command is well formed, its encoding is the word it was decoded from, and its operands are the inputs that
stood beside that word (30_encoding.md R55, R56). -/
def Obligations.DecodedCommandKeepsItsWord : Prop :=
  ∀ (r : Request) (i : Instr), decodeRequest r = .ok i →
    WellFormed i = true ∧ (encode i).cmd = r.cmd ∧
    (∀ df fp fps h m s f, i = .load df fp fps h m s f →
      r.operands.fpsIn = fps ∧ r.operands.hIn = h ∧ r.operands.mIn = m ∧ r.operands.sIn = s ∧ r.operands.fIn = f) ∧
    (∀ u, i = .wrub u → r.operands.ubIn = u)

/-- R57: the condition for a legal word, the 18 legal words, that exactly they decode, and what every other word does. -/
def Obligations.LegalWordsAndIllegalWords : Prop :=
  (∀ c : CmdWord, legal c = true ↔
    (opcode c ∈ ([0x0, 0x2, 0x3, 0x4, 0x5, 0x6, 0x7, 0x8] : List (BitVec 4)) ∧ formatBits c = 0) ∨
    (opcode c = 0x1 ∧ c.extractLsb' 6 2 = 0) ∨
    (opcode c = 0x9 ∧ c.getLsbD 7 = false ∧ (c.extractLsb' 4 3).toNat ≤ 5)) ∧
  (∀ c : CmdWord, legal c = true ↔
    c ∈ ([0x00, 0x01, 0x11, 0x21, 0x31, 0x02, 0x03, 0x04, 0x05, 0x06, 0x07, 0x08, 0x09, 0x19, 0x29, 0x39, 0x49, 0x59] :
      List CmdWord)) ∧
  ((List.range 256).countP fun n => legal (BitVec.ofNat 8 n)) = 18 ∧
  ((List.range 256).countP fun n => !legal (BitVec.ofNat 8 n)) = 238 ∧
  (∀ r : Request, legal r.cmd = true ↔ ∃ i, decodeRequest r = .ok i) ∧
  (∀ (r : Request) (s : State), legal r.cmd = false →
    perform r s = .next { s with res := .zero, status := .illegal })

/-- The worked encodings of R63: the assembled line, its command word and inputs, and the decoder's answer. -/
def Obligations.WorkedEncodingsDecode : Prop :=
  assembleLine "LOAD 30, 10, 11, 12, 13, df=1".toList = some [.load true false 30 10 11 12 13] ∧
  encode (.load true false 30 10 11 12 13) = ⟨0x11, ⟨30, 10, 11, 12, 13, 0⟩⟩ ∧
  decodeRequest ⟨0x11, ⟨30, 10, 11, 12, 13, 0⟩⟩ = .ok (.load true false 30 10 11 12 13) ∧
  assembleLine "LOAD 60, 10, 11, 12, 13, df=1, fp=1".toList = some [.load true true 60 10 11 12 13] ∧
  encode (.load true true 60 10 11 12 13) = ⟨0x31, ⟨60, 10, 11, 12, 13, 0⟩⟩ ∧
  decodeRequest ⟨0x31, ⟨60, 10, 11, 12, 13, 0⟩⟩ = .ok (.load true true 60 10 11 12 13) ∧
  assembleLine "LOAD 25, 0, 0, 0, 0".toList = some [.load false false 25 0 0 0 0] ∧
  encode (.load false false 25 0 0 0 0) = ⟨0x01, ⟨25, 0, 0, 0, 0, 0⟩⟩ ∧
  decodeRequest ⟨0x01, ⟨25, 0, 0, 0, 0, 0⟩⟩ = .ok (.load false false 25 0 0 0 0) ∧
  assembleLine "WRUB 0xDEADBEEF".toList = some [.wrub 0xDEADBEEF] ∧
  encode (.wrub 0xDEADBEEF) = ⟨0x07, ⟨0, 0, 0, 0, 0, 0xDEADBEEF⟩⟩ ∧
  decodeRequest ⟨0x07, ⟨0, 0, 0, 0, 0, 0xDEADBEEF⟩⟩ = .ok (.wrub 0xDEADBEEF) ∧
  assembleLine "RDRATE dfph".toList = some [.rdrate 5] ∧
  encode (.rdrate 5) = ⟨0x59, .zero⟩ ∧
  decodeRequest ⟨0x59, .zero⟩ = .ok (.rdrate 5) ∧
  assembleLine "RDRATE 6".toList = some [.rdrate 6] ∧
  encode (.rdrate 6) = ⟨0x69, .zero⟩ ∧
  decodeRequest ⟨0x69, .zero⟩ = .error (.selOutOfRange 6)

/-- The remaining format N words of the opcode map (30_encoding.md R56), each with every operand input 0. -/
def Obligations.FormatNWordsDecode : Prop :=
  decodeRequest ⟨0x00, .zero⟩ = .ok .nop ∧ decodeRequest ⟨0x02, .zero⟩ = .ok .incr ∧
  decodeRequest ⟨0x03, .zero⟩ = .ok .decode ∧ decodeRequest ⟨0x04, .zero⟩ = .ok .tobcd ∧
  decodeRequest ⟨0x05, .zero⟩ = .ok .rdflags ∧ decodeRequest ⟨0x06, .zero⟩ = .ok .rdub ∧
  decodeRequest ⟨0x08, .zero⟩ = .ok .rdcnt ∧ decodeRequest ⟨0x12, .zero⟩ = .error (.reservedBits 0x12) ∧
  decodeRequest ⟨0x0A, .zero⟩ = .error (.reservedOpcode 0xA)

/-- Inputs outside a command's row have no effect on it (10_state.md R30). -/
def Obligations.UnusedInputsHaveNoEffect : Prop :=
  ∀ (r q : Request) (s : State), r.cmd = q.cmd →
    (opcode r.cmd ≠ 0x1 → opcode r.cmd ≠ 0x7 → perform r s = perform q s) ∧
    (opcode r.cmd = 0x7 → r.operands.ubIn = q.operands.ubIn → perform r s = perform q s) ∧
    (opcode r.cmd = 0x1 → r.operands.fpsIn = q.operands.fpsIn → r.operands.hIn = q.operands.hIn →
      r.operands.mIn = q.operands.mIn → r.operands.sIn = q.operands.sIn → r.operands.fIn = q.operands.fIn →
      perform r s = perform q s)

/-- R62: the two pseudo-commands, and the effect of ADVANCE on a configured core, `COUNTER <- trunc_32(COUNTER + n)`. -/
def Obligations.PseudoCommandsExpand : Prop :=
  (∀ (fps : Word16) (df : Bool), Instr.newTimecode fps df = .load df false fps 0 0 0 0) ∧
  (∀ n, Instr.advance n = List.replicate n .incr) ∧
  assembleLine "NEW 25".toList = some [Instr.newTimecode 25 false] ∧
  assembleLine "NEW 30, df=1".toList = some [Instr.newTimecode 30 true] ∧
  assembleLine "ADVANCE 4".toList = some (Instr.advance 4) ∧
  (∀ (n : Nat) (s : State), s.fps ≠ 0 →
    performAll ((Instr.advance (n + 1)).map encode) s =
      .next { s with counter := s.counter + BitVec.ofNat 32 (n + 1), res := .zero, status := .ok }) ∧
  (∀ s : State, performAll ((Instr.advance 0).map encode) s = .next s)

/-! ### The command step and the step of the machine -/

/-- R59, arm by arm: the order of the checks and the dispatch, with what each arm writes. -/
def Obligations.CommandStepFollowsItsPseudocode : Prop :=
  ∀ (r : Request) (s : State), perform r s = .next
    (if legal r.cmd = false then { s with res := .zero, status := .illegal }
    else if needsRate (opcode r.cmd) = true ∧ s.fps = 0 then { s with res := .zero, status := .unconfig }
    else if opcode r.cmd = 0x0 then { s with res := .zero, status := .ok }
    else if opcode r.cmd = 0x1 then
      if r.operands.fpsIn = 0 then { s with res := .zero, status := .badFps }
      else
        { s with
          fps := r.operands.fpsIn
          drop := r.cmd.getLsbD 4
          counter := fieldsToCount r.operands.fpsIn.toNat (r.cmd.getLsbD 4) r.operands.hIn.toNat r.operands.mIn.toNat
            r.operands.sIn.toNat r.operands.fIn.toNat (r.cmd.getLsbD 5)
          userBits := 0
          res := .zero
          status := .ok }
    else if opcode r.cmd = 0x2 then
      { s with counter := BitVec.ofNat 32 (s.counter.toNat + 1), res := .zero, status := .ok }
    else if opcode r.cmd = 0x3 then
      { s with
        res := ⟨BitVec.ofNat 32 s.fields.h, BitVec.ofNat 32 s.fields.m, BitVec.ofNat 32 s.fields.s,
          BitVec.ofNat 32 s.fields.f⟩
        status := .ok }
    else if opcode r.cmd = 0x4 then { s with res := ⟨toBcd s.fields, 0, 0, 0⟩, status := .ok }
    else if opcode r.cmd = 0x5 then
      { s with res := ⟨(BitVec.ofBool s.fieldMark ++ BitVec.ofBool s.drop).setWidth 32, 0, 0, 0⟩, status := .ok }
    else if opcode r.cmd = 0x6 then { s with res := ⟨s.userBits, 0, 0, 0⟩, status := .ok }
    else if opcode r.cmd = 0x7 then { s with userBits := r.operands.ubIn, res := .zero, status := .ok }
    else if opcode r.cmd = 0x8 then { s with res := ⟨s.counter, 0, 0, 0⟩, status := .ok }
    else
      { s with
        res := ⟨BitVec.ofNat 32 ((rateConsts s.fps.toNat).select (r.cmd.extractLsb' 4 3)), 0, 0, 0⟩
        status := .ok })

/-- When the host's next command decodes to `i` and none is in flight, the step is `exec` of `i` with the command taken from
the host's list, and around it the response of 70_reset_and_hazards.md R155. The host's list and the grain of the step are
the model's own: log entries 2 (DESIGN CHOICE) and 4 (DEDUCED). -/
def Obligations.StepRunsTheDecodedCommand : Prop :=
  ∀ (s : State) (r : Request) (rest : List HostEvent) (i : Instr),
    s.host = .command r :: rest → s.inFlight = none → decodeRequest r = .ok i →
    step s = mapNext (fun t => { t with cmdReady := true, rspValid := true, inFlight := none })
      (exec i { s with host := rest })

/-- The steps that run no decoded command of the host's list: an illegal word (30_encoding.md R57) with the response of
70_reset_and_hazards.md R155, a reset, also with a command in flight (R150, R151), a command in flight, and an idle core
(R158), whose response pulse ends (10_state.md R35, 70_reset_and_hazards.md R155). That a command in flight completes before
the host's next event is the model's reading, log entry 4 (DEDUCED); the host's list is the model's own, log entry 2
(DESIGN CHOICE). -/
def Obligations.StepOnTheOtherEvents : Prop :=
  (∀ (s : State) (r : Request) (rest : List HostEvent),
    s.host = .command r :: rest → s.inFlight = none → legal r.cmd = false →
    step s = .next { s with
      host := rest, res := .zero, status := .illegal, cmdReady := true, rspValid := true, inFlight := none }) ∧
  (∀ (s : State) (rest : List HostEvent), s.host = .reset :: rest →
    step s = .next { State.reset with host := rest }) ∧
  (∀ (s : State) (flight : Flight), s.inFlight = some flight → (∀ rest, s.host ≠ .reset :: rest) →
    step s = mapNext (fun t => { t with cmdReady := true, rspValid := true, inFlight := none })
      (perform flight.request s)) ∧
  (∀ s : State, s.host = [] → s.inFlight = none → step s = .next { s with rspValid := false })

/-- The core never stops: every command, every step and every clock edge answers a next state (60_exceptions.md R130,
70_reset_and_hazards.md R158). -/
def Obligations.CoreNeverStops : Prop :=
  (∀ (i : Instr) (s : State), ∃ t, exec i s = .next t) ∧ (∀ s : State, ∃ t, step s = .next t) ∧
  (∀ (p : PortsIn) (s : State), ∃ t, clockEdge p s = .next t)

/-- A run of commands from an idle core ends in the registers that the command step gives when it is applied to the commands
one after another (20_memory.md R44, 70_reset_and_hazards.md R158). The host's list and the grain of the step are the
model's own: log entries 2 (DESIGN CHOICE) and 4 (DEDUCED). -/
def Obligations.RunAppliesCommandsInOrder : Prop :=
  ∀ (rs : List Request) (s : State), rs ≠ [] → s.inFlight = none → s.host = rs.map .command →
    Host.Core.run core rs.length s =
      mapNext (fun t => { t with host := [], cmdReady := true, rspValid := true, inFlight := none }) (performAll rs s)

/-- The invariant at reset. -/
def Obligations.InvAtReset : Prop := State.reset.Inv

/-- Every step keeps the invariant (10_state.md R21, 60_exceptions.md R132, R133, 70_reset_and_hazards.md R155). -/
def Obligations.StepKeepsInv : Prop := ∀ s t : State, s.Inv → step s = .next t → t.Inv

/-- Every clock edge, with any levels on the input ports, keeps the invariant. -/
def Obligations.ClockEdgeKeepsInv : Prop := ∀ (p : PortsIn) (s t : State), s.Inv → clockEdge p s = .next t → t.Inv

/-- A configured core stays configured until a reset (10_state.md R21: only a successful LOAD writes FPS, never 0). -/
def Obligations.ConfiguredUntilReset : Prop :=
  ∀ s t : State, step s = .next t → s.fps ≠ 0 → t.fps ≠ 0 ∨ ∃ rest, s.host = .reset :: rest

/-! ### The clock -/

/-- An edge with `rst = 1` sets every register to its reset value, which is also `State.reset`'s (10_state.md R20,
70_reset_and_hazards.md R150), and the next edge with `rst = 0` can accept a command (10_state.md R35). R150 says of
`cmd_ready = 1` "taking effect at the first edge with `rst = 0`"; that it reads 1 straight after the edge with `rst = 1`, and
that the first edge with `rst = 0` accepts, is the model's reading: log entry 9 (DEDUCED, unsafe). The empty list of the host
at `State.reset` is log entry 2 (DESIGN CHOICE). -/
def Obligations.ResetEdgeSetsEveryRegister : Prop :=
  (∀ (p : PortsIn) (s : State), p.rst = true → clockEdge p s = .next
    { fps := 0, drop := false, counter := 0, userBits := 0, res := ⟨0, 0, 0, 0⟩, status := .ok,
      cmdReady := true, rspValid := false, inFlight := none, host := s.host }) ∧
  State.reset =
    { fps := 0, drop := false, counter := 0, userBits := 0, res := ⟨0, 0, 0, 0⟩, status := .ok,
      cmdReady := true, rspValid := false, inFlight := none, host := [] } ∧
  Status.ok.code = 0 ∧
  (∀ (p q : PortsIn) (s : State), p.rst = true → q.rst = false → q.cmdValid = true →
    clockEdges [p, q] s = .next { State.reset with
      host := s.host, cmdReady := false, inFlight := some ⟨q.request, latency q.request.cmd⟩ })

/-- R151: a reset during a flight leaves the reset state, and however long the host then presents nothing, no write of the
discarded command happens and no response is given. -/
def Obligations.ResetDiscardsTheFlight : Prop :=
  ∀ (s : State) (flight : Flight) (p : PortsIn) (ps : List PortsIn), s.inFlight = some flight → p.rst = true →
    (∀ q ∈ ps, q.rst = false ∧ q.cmdValid = false) →
    clockEdges (p :: ps) s = .next { State.reset with host := s.host }

/-- From acceptance until the completing edge no register of 10_state.md R20 shows part of the command's effect, `cmd_ready`
and `rsp_valid` are 0, and neither the operand inputs nor `cmd_valid` matter (20_memory.md R43, 10_state.md R35,
70_reset_and_hazards.md R155). -/
def Obligations.RegistersHoldDuringTheFlight : Prop :=
  ∀ (s : State) (p : PortsIn) (ps : List PortsIn), s.inFlight = none → s.cmdReady = true → p.rst = false →
    p.cmdValid = true → (∀ q ∈ ps, q.rst = false) → ps.length < latency p.request.cmd →
    clockEdges (p :: ps) s = .next { s with
      cmdReady := false
      rspValid := false
      inFlight := some ⟨p.request, latency p.request.cmd - ps.length⟩ }

/-- The handshake refines the transaction level: the edges from the accepting edge to the completing edge, `LATENCY` edges
later, do exactly what one step does with the command, for every latency and whatever the input ports show after the
accepting edge, reset excepted (00_scope.md R8, 10_state.md R35, 70_reset_and_hazards.md R155, R156). The step it compares
with, and the host's list that step reads, are the model's own: log entries 4 (DEDUCED) and 2 (DESIGN CHOICE). -/
def Obligations.EdgesUntilCompletionAreOneStep : Prop :=
  ∀ (s : State) (p : PortsIn) (ps : List PortsIn), s.inFlight = none → s.cmdReady = true → p.rst = false →
    p.cmdValid = true → (∀ q ∈ ps, q.rst = false) → ps.length = latency p.request.cmd →
    clockEdges (p :: ps) s = step { s with host := .command p.request :: s.host }

/-- `rsp_valid` is a one-cycle pulse given only by a completing edge: the edge that sets it completes a command in flight and
raises `cmd_ready`, and the next edge clears it (10_state.md R35, 70_reset_and_hazards.md R155). -/
def Obligations.ResponseIsOnePulse : Prop :=
  ∀ (p : PortsIn) (s t : State), clockEdge p s = .next t → t.rspValid = true →
    p.rst = false ∧ t.cmdReady = true ∧ t.inFlight = none ∧ (∃ flight, s.inFlight = some flight ∧ flight.edgesLeft ≤ 1) ∧
    ∀ (q : PortsIn), ∃ u, clockEdge q t = .next u ∧ u.rspValid = false

/-- The response of an accepted command: at its completing edge `rsp_valid` and `cmd_ready` are 1 and the output ports show
the status code and the results that the command step gives (10_state.md R35, 60_exceptions.md R142). -/
def Obligations.ResponseCarriesStatusAndResults : Prop :=
  ∀ (s : State) (p : PortsIn) (ps : List PortsIn), s.inFlight = none → s.cmdReady = true → p.rst = false →
    p.cmdValid = true → (∀ q ∈ ps, q.rst = false) → ps.length = latency p.request.cmd →
    ∃ t u, clockEdges (p :: ps) s = .next t ∧ perform p.request s = .next u ∧
      t.outputs = ⟨true, true, u.status.code, u.res.r0, u.res.r1, u.res.r2, u.res.r3⟩

/-- While `cmd_ready` is 0 the input ports other than `rst` have no effect ("A `cmd_valid` asserted while `cmd_ready = 0`
has no effect until `cmd_ready = 1`", 70_reset_and_hazards.md R155). -/
def Obligations.InputsIgnoredWhileNotReady : Prop :=
  ∀ (p q : PortsIn) (s : State), s.cmdReady = false → p.rst = q.rst → clockEdge p s = clockEdge q s

/-! ### Status and what commands write -/

/-- R131 and R136: the status of every command is the first that applies of ILLEGAL, UNCONFIG, BADFPS, else OK, with the
codes of R131; UNCONFIG and BADFPS never apply to the same command. -/
def Obligations.StatusOfEveryCommand : Prop :=
  (∀ (r : Request) (s : State), ∃ t, perform r s = .next t ∧
    t.status =
      if legal r.cmd = false then .illegal
      else if opcode r.cmd ∈ ([0x2, 0x3, 0x4, 0x5, 0x9] : List (BitVec 4)) ∧ s.fps = 0 then .unconfig
      else if opcode r.cmd = 0x1 ∧ r.operands.fpsIn = 0 then .badFps
      else .ok) ∧
  (∀ c : CmdWord, ¬ (opcode c ∈ ([0x2, 0x3, 0x4, 0x5, 0x9] : List (BitVec 4)) ∧ opcode c = 0x1)) ∧
  Status.ok.code = 0 ∧ Status.illegal.code = 1 ∧ Status.badFps.code = 2 ∧ Status.unconfig.code = 3 ∧
  (∀ s : State, perform ⟨0xC1, .zero⟩ s = .next { s with res := .zero, status := .illegal })

/-- R132: a failed command is precise. -/
def Obligations.FailedCommandIsPrecise : Prop :=
  ∀ (r : Request) (s : State), ∃ t, perform r s = .next t ∧
    (t.status ≠ .ok → t = { s with res := ⟨0, 0, 0, 0⟩, status := t.status })

/-- R58: which commands need the rate, that in the unconfigured state exactly these fail with UNCONFIG, and that in a
configured state none does. -/
def Obligations.CommandsThatNeedTheRate : Prop :=
  (∀ (r : Request) (i : Instr), decodeRequest r = .ok i →
    (needsRate (opcode r.cmd) = true ↔ i = .incr ∨ i = .decode ∨ i = .tobcd ∨ i = .rdflags ∨ ∃ sel, i = .rdrate sel)) ∧
  (∀ (r : Request) (s : State), legal r.cmd = true → needsRate (opcode r.cmd) = true → s.fps = 0 →
    perform r s = .next { s with res := .zero, status := .unconfig }) ∧
  (∀ (r : Request) (s : State), needsRate (opcode r.cmd) = false ∨ s.fps ≠ 0 →
    ∃ t, perform r s = .next t ∧ t.status ≠ .unconfig)

/-- No command reads the results or the status of an earlier one; every command writes all of both (10_state.md R20, R25,
R26, 30_encoding.md R60). -/
def Obligations.OldResultsAndStatusAreInvisible : Prop :=
  ∀ (i : Instr) (s : State) (old : Results) (code : Status), exec i { s with res := old, status := code } = exec i s

/-- Which commands write which register: FPS and DROP only a successful LOAD, COUNTER only a successful LOAD and INCR; no
command touches the handshake or the host's list (10_state.md R20 to R23, 60_exceptions.md R141). -/
def Obligations.RegistersAndTheirWriters : Prop :=
  ∀ (i : Instr) (s : State), ∃ t, exec i s = .next t ∧
    t.cmdReady = s.cmdReady ∧ t.rspValid = s.rspValid ∧ t.inFlight = s.inFlight ∧ t.host = s.host ∧
    ((t.fps = s.fps ∧ t.drop = s.drop) ∨
      ∃ df fp fps h m sec f, i = .load df fp fps h m sec f ∧ fps ≠ 0 ∧ t.fps = fps ∧ t.drop = df) ∧
    (t.counter = s.counter ∨ (i = .incr ∧ s.fps ≠ 0) ∨
      ∃ df fp fps h m sec f, i = .load df fp fps h m sec f ∧ fps ≠ 0)

/-- R124: only WRUB and LOAD write USERBITS, and no command but RDUB reads it: with any other user bits it does the same to
every other register. -/
def Obligations.UserBitsAreOpaque : Prop :=
  (∀ (i : Instr) (s t : State), exec i s = .next t →
    t.userBits = s.userBits ∨ (∃ u, i = .wrub u) ∨ ∃ df fp fps h m sec f, i = .load df fp fps h m sec f) ∧
  (∀ (i : Instr) (s : State) (u : Word32), i ≠ .rdub →
    ∃ t v, exec i s = .next t ∧ exec i { s with userBits := u } = .next v ∧ v = { t with userBits := v.userBits } ∧
      (v.userBits = t.userBits ∨ (t.userBits = s.userBits ∧ v.userBits = u)))

/-- The commands that read state change nothing but RES and STATUS, and issuing one twice gives the same RES and STATUS both
times (20_memory.md R42). -/
def Obligations.ReadCommandsAreIdempotent : Prop :=
  ∀ (i : Instr) (s : State),
    (i = .nop ∨ i = .decode ∨ i = .tobcd ∨ i = .rdflags ∨ i = .rdub ∨ i = .rdcnt ∨ ∃ sel, i = .rdrate sel) →
    ∃ t, exec i s = .next t ∧ t = { s with res := t.res, status := t.status } ∧ exec i t = .next t

/-! ### The commands one by one -/

/-- NOP (45_access.md R120): its effect in every state, and its one legal word. -/
def Obligations.NopClearsResultsAndStatus : Prop :=
  (∀ s : State, exec .nop s = .next { s with res := ⟨0, 0, 0, 0⟩, status := .ok }) ∧
  (∀ (r : Request) (s : State), opcode r.cmd = 0x0 →
    perform r s = if formatBits r.cmd = 0 then exec .nop s else .next { s with res := .zero, status := .illegal })

/-- RDCNT (R121): its effect in every state, what it gives in an unconfigured state that the invariant allows, the field
mark as bit 0 above 30 fps, its words, and the rule's example. -/
def Obligations.RdcntReturnsTheCounter : Prop :=
  (∀ s : State, exec .rdcnt s = .next { s with res := ⟨s.counter, 0, 0, 0⟩, status := .ok }) ∧
  (∀ s : State, s.BlankWhenUnconfigured → s.fps = 0 → exec .rdcnt s = .next { s with res := .zero, status := .ok }) ∧
  (∀ s : State, s.fps.toNat > 30 → s.counter.getLsbD 0 = s.fieldMark) ∧
  (∀ (r : Request) (s : State), opcode r.cmd = 0x8 →
    perform r s = if formatBits r.cmd = 0 then exec .rdcnt s else .next { s with res := .zero, status := .illegal }) ∧
  (∀ s : State, ∃ t, performAll [encode (.load true true 60 10 11 12 13), encode .rdcnt] s = .next t ∧
    t.res = ⟨2198147, 0, 0, 0⟩)

/-- RDUB (R122): its effect in every state, its words, that it reads 0 after a LOAD, and the rule's example for every
payload. -/
def Obligations.RdubReturnsTheUserBits : Prop :=
  (∀ s : State, exec .rdub s = .next { s with res := ⟨s.userBits, 0, 0, 0⟩, status := .ok }) ∧
  (∀ (r : Request) (s : State), opcode r.cmd = 0x6 →
    perform r s = if formatBits r.cmd = 0 then exec .rdub s else .next { s with res := .zero, status := .illegal }) ∧
  (∀ (s : State) df fp fps h m sec f, fps ≠ 0 →
    ∃ t, performAll [encode (.load df fp fps h m sec f), encode .rdub] s = .next t ∧ t.res = ⟨0, 0, 0, 0⟩ ∧
      t.status = .ok) ∧
  (∀ (s : State) (u : Word32), ∃ t, performAll [encode (.wrub u), encode .rdub] s = .next t ∧ t.res = ⟨u, 0, 0, 0⟩)

/-- WRUB (R123): its effect in every state for every payload, and its words. -/
def Obligations.WrubStoresTheUserBits : Prop :=
  (∀ (s : State) (u : Word32), exec (.wrub u) s = .next { s with userBits := u, res := ⟨0, 0, 0, 0⟩, status := .ok }) ∧
  (∀ (r : Request) (s : State), opcode r.cmd = 0x7 →
    perform r s = if formatBits r.cmd = 0 then exec (.wrub r.operands.ubIn) s
      else .next { s with res := .zero, status := .illegal })

/-- INCR (R105, R106): one frame or field on, with the wrap at 2^32; UNCONFIG while unconfigured; its words; the field mark
follows; the rule's example. -/
def Obligations.IncrAdvancesTheCounter : Prop :=
  (∀ s : State, s.fps ≠ 0 → exec .incr s = .next { s with counter := s.counter + 1, res := ⟨0, 0, 0, 0⟩, status := .ok }) ∧
  (∀ s : State, s.fps ≠ 0 → s.counter = 0xFFFFFFFF →
    exec .incr s = .next { s with counter := 0, res := ⟨0, 0, 0, 0⟩, status := .ok }) ∧
  (∀ s : State, s.fps = 0 → exec .incr s = .next { s with res := .zero, status := .unconfig }) ∧
  (∀ (r : Request) (s : State), opcode r.cmd = 0x2 →
    perform r s = if formatBits r.cmd = 0 then exec .incr s else .next { s with res := .zero, status := .illegal }) ∧
  (∀ s t : State, exec .incr s = .next t → t.fieldMark = (decide (t.fps.toNat > 30) && t.counter.getLsbD 0)) ∧
  (∀ s : State, s.fps = 30 → s.drop = true → s.counter = 1799 →
    ∃ t, exec .incr s = .next t ∧ t.counter = 1800 ∧ t.fields = ⟨0, 1, 0, 2⟩)

/-- LOAD (R85, R134): a new timecode from any operands, the flags that follow, BADFPS with every register kept when
`fps_in = 0`, and its words. -/
def Obligations.LoadConstructsATimecode : Prop :=
  (∀ (s : State) (df fp : Bool) (fps : Word16) (h m sec f : Word32), fps ≠ 0 →
    exec (.load df fp fps h m sec f) s = .next { s with
      fps := fps
      drop := df
      counter := fieldsToCount fps.toNat df h.toNat m.toNat sec.toNat f.toNat fp
      userBits := 0
      res := ⟨0, 0, 0, 0⟩
      status := .ok }) ∧
  (∀ (s : State) (df fp : Bool) (h m sec f : Word32),
    exec (.load df fp 0 h m sec f) s = .next { s with res := ⟨0, 0, 0, 0⟩, status := .badFps }) ∧
  (∀ (s : State) (df fp : Bool) (fps : Word16) (h m sec f : Word32), fps ≠ 0 →
    ∃ t, exec (.load df fp fps h m sec f) s = .next t ∧ t.fieldMark = (decide (fps.toNat > 30) && fp)) ∧
  (∀ (r : Request) (s : State), opcode r.cmd = 0x1 →
    perform r s =
      if r.cmd.extractLsb' 6 2 = 0 then
        exec (.load (r.cmd.getLsbD 4) (r.cmd.getLsbD 5) r.operands.fpsIn r.operands.hIn r.operands.mIn r.operands.sIn
          r.operands.fIn) s
      else .next { s with res := .zero, status := .illegal }) ∧
  (∀ s : State, ∃ t, exec (.load true false 30 10 11 12 13) s = .next t ∧ t.counter = 1099073 ∧ t.drop = true ∧
    t.fps = 30 ∧ t.userBits = 0 ∧ t.status = .ok)

/-- DECODE (R100): the four fields arrive in the four result registers exactly, hours past 23 included; UNCONFIG while
unconfigured; its words; the two fields of one frame decode to the same label; the rule's example. -/
def Obligations.DecodeReturnsTheFields : Prop :=
  (∀ s : State, s.fps ≠ 0 →
    exec .decode s = .next { s with
      res := ⟨BitVec.ofNat 32 s.fields.h, BitVec.ofNat 32 s.fields.m, BitVec.ofNat 32 s.fields.s,
        BitVec.ofNat 32 s.fields.f⟩
      status := .ok }) ∧
  (∀ s : State, s.fps ≠ 0 → ∃ t, exec .decode s = .next t ∧ t.res.r0.toNat = s.fields.h ∧ t.res.r1.toNat = s.fields.m ∧
    t.res.r2.toNat = s.fields.s ∧ t.res.r3.toNat = s.fields.f) ∧
  (∀ s : State, s.fps = 0 → exec .decode s = .next { s with res := .zero, status := .unconfig }) ∧
  (∀ (r : Request) (s : State), opcode r.cmd = 0x3 →
    perform r s = if formatBits r.cmd = 0 then exec .decode s else .next { s with res := .zero, status := .illegal }) ∧
  (∀ s : State, s.fps.toNat > 30 → s.counter.getLsbD 0 = false → { s with counter := s.counter + 1 }.fields = s.fields) ∧
  (∀ s : State, s.fps = 30 → s.drop = true → s.counter = 1800 →
    exec .decode s = .next { s with res := ⟨0, 1, 0, 2⟩, status := .ok })

/-- TOBCD (R113): the BCD word of the decoded fields; UNCONFIG while unconfigured; its words; the two fields of one frame
give the same word; the rule's example. -/
def Obligations.TobcdReturnsTheBcdWord : Prop :=
  (∀ s : State, s.fps ≠ 0 → exec .tobcd s = .next { s with
    res := ⟨toBcd (countToFields s.fps.toNat s.drop s.counter.toNat), 0, 0, 0⟩, status := .ok }) ∧
  (∀ s : State, s.fps = 0 → exec .tobcd s = .next { s with res := .zero, status := .unconfig }) ∧
  (∀ (r : Request) (s : State), opcode r.cmd = 0x4 →
    perform r s = if formatBits r.cmd = 0 then exec .tobcd s else .next { s with res := .zero, status := .illegal }) ∧
  (∀ s : State, s.fps.toNat > 30 → s.counter.getLsbD 0 = false →
    ∃ t u, exec .tobcd s = .next t ∧ exec .tobcd { s with counter := s.counter + 1 } = .next u ∧ t.res = u.res) ∧
  (∀ s : State, s.fps = 30 → s.drop = true → s.counter = 1099073 →
    exec .tobcd s = .next { s with res := ⟨0x10111213, 0, 0, 0⟩, status := .ok })

/-- RDFLAGS (R101, R28): bit 0 is DROP, bit 1 the field mark, which is 1 exactly above 30 fps at an odd counter, and the
other bits 0; UNCONFIG while unconfigured; its words; the rule's example. -/
def Obligations.RdflagsReturnsTheFlags : Prop :=
  (∀ s : State, s.fps ≠ 0 → exec .rdflags s = .next { s with
    res := ⟨BitVec.ofNat 32 (2 * s.fieldMark.toNat + s.drop.toNat), 0, 0, 0⟩, status := .ok }) ∧
  (∀ s : State, s.fieldMark = true ↔ s.fps.toNat > 30 ∧ s.counter.toNat % 2 = 1) ∧
  (∀ s : State, s.fps = 0 → exec .rdflags s = .next { s with res := .zero, status := .unconfig }) ∧
  (∀ (r : Request) (s : State), opcode r.cmd = 0x5 →
    perform r s = if formatBits r.cmd = 0 then exec .rdflags s else .next { s with res := .zero, status := .illegal }) ∧
  (∀ s : State, ∃ t, performAll [encode (.load true true 60 10 11 12 13), encode .rdflags] s = .next t ∧
    t.res = ⟨3, 0, 0, 0⟩)

/-- RDRATE (R75): the selected constant, exactly; ILLEGAL for SEL > 5 and for bit 7, UNCONFIG while unconfigured; no
dependence on DROP; the largest result; the rule's example. -/
def Obligations.RdrateReturnsTheConstant : Prop :=
  (∀ (s : State) (sel : BitVec 3), s.fps ≠ 0 → sel.toNat ≤ 5 →
    exec (.rdrate sel) s = .next { s with
      res := ⟨BitVec.ofNat 32 ((rateConsts s.fps.toNat).select sel), 0, 0, 0⟩, status := .ok }) ∧
  (∀ (s : State) (sel : BitVec 3), s.fps ≠ 0 → sel.toNat ≤ 5 →
    ∃ t, exec (.rdrate sel) s = .next t ∧ t.res.r0.toNat = (rateConsts s.fps.toNat).select sel) ∧
  (∀ (s : State) (sel : BitVec 3), s.fps = 0 → sel.toNat ≤ 5 →
    exec (.rdrate sel) s = .next { s with res := .zero, status := .unconfig }) ∧
  (∀ (r : Request) (s : State), opcode r.cmd = 0x9 →
    perform r s =
      if r.cmd.getLsbD 7 = false ∧ (r.cmd.extractLsb' 4 3).toNat ≤ 5 then exec (.rdrate (r.cmd.extractLsb' 4 3)) s
      else .next { s with res := .zero, status := .illegal }) ∧
  (∀ (s : State) (sel : BitVec 3) (d : Bool),
    ∃ t, exec (.rdrate sel) s = .next t ∧ exec (.rdrate sel) { s with drop := d } = .next { t with drop := d }) ∧
  (∀ s : State, s.fps = 65535 → exec (.rdrate 1) s = .next { s with res := ⟨117961200, 0, 0, 0⟩, status := .ok }) ∧
  (∀ s : State, s.fps = 30 → perform ⟨0x59, .zero⟩ s = .next { s with res := ⟨107892, 0, 0, 0⟩, status := .ok })

/-! ### The functions behind the commands -/

/-- R71: the six rate constants, and R54's numbering of them. -/
def Obligations.RateConstantsFollowTheTable : Prop :=
  ∀ fps : Nat, 1 ≤ fps → fps ≤ 65535 →
    ∃ sf dfpm dfp10, sf = (if fps ≤ 30 then fps else fps / 2) ∧ dfpm = sf * 60 - 2 ∧ dfp10 = dfpm * 9 + sf * 60 ∧
      (rateConsts fps).select 0 = sf ∧ (rateConsts fps).select 1 = sf * 3600 ∧ (rateConsts fps).select 2 = sf * 60 ∧
      (rateConsts fps).select 3 = dfpm ∧ (rateConsts fps).select 4 = dfp10 ∧ (rateConsts fps).select 5 = dfp10 * 6

/-- R72: the bounds of the six constants. -/
def Obligations.RateConstantsAreBounded : Prop :=
  ∀ fps : Nat, 1 ≤ fps → fps ≤ 65535 →
    1 ≤ (rateConsts fps).sf ∧ (rateConsts fps).sf ≤ 32767 ∧
    (rateConsts fps).dfpm = 60 * (rateConsts fps).sf - 2 ∧ 58 ≤ (rateConsts fps).dfpm ∧
    (rateConsts fps).dfp10 = 600 * (rateConsts fps).sf - 18 ∧
    (rateConsts fps).dfph = 3600 * (rateConsts fps).sf - 108 ∧
    0 < (rateConsts fps).dfpm ∧ (rateConsts fps).dfpm < (rateConsts fps).fpm ∧
    (rateConsts fps).fpm ≤ (rateConsts fps).dfp10 ∧ (rateConsts fps).dfp10 < (rateConsts fps).dfph ∧
    (rateConsts fps).dfph < (rateConsts fps).fph ∧ (rateConsts fps).fph ≤ 117961200 ∧ 117961200 < 2 ^ 27

/-- R81 with R83: the count is the exact result of steps 1 to 3 modulo 2^32, for all inputs. -/
def Obligations.FieldsToCountFollowsTheAlgorithm : Prop :=
  ∀ (fps h m s f : Nat) (df fp : Bool),
    ∃ step1 base cnt,
      step1 = (if df = true then
          h * (rateConsts fps).dfph + (m / 10) * (rateConsts fps).dfp10 + (m % 10) * (rateConsts fps).dfpm
        else h * (rateConsts fps).fph + m * (rateConsts fps).fpm) ∧
      base = step1 + s * (rateConsts fps).sf + f ∧
      cnt = (if fps > 30 then base * 2 + fp.toNat else base) ∧
      fieldsToCount fps df h m s f fp = BitVec.ofNat 32 cnt

/-- R83: truncating each intermediate value to 32 bits gives the same count as truncating once at the end; no valid label
below 24 hours wraps up to 49711 fps; and the rule's example of a wrap. -/
def Obligations.TruncationMayComeAtAnyPoint : Prop :=
  (∀ (fps : Nat) (df fp : Bool) (h m s f : Nat),
    (fieldsToCount fps df h m s f fp).toNat = exactCount fps df h m s f fp % 2 ^ 32) ∧
  (∀ (fps : Nat) (df fp : Bool) (h m s f : Word32),
    ∃ base : Word32,
      base = (if df = true then
          h * BitVec.ofNat 32 (rateConsts fps).dfph + BitVec.ofNat 32 (m.toNat / 10) * BitVec.ofNat 32 (rateConsts fps).dfp10
            + BitVec.ofNat 32 (m.toNat % 10) * BitVec.ofNat 32 (rateConsts fps).dfpm
        else h * BitVec.ofNat 32 (rateConsts fps).fph + m * BitVec.ofNat 32 (rateConsts fps).fpm)
        + s * BitVec.ofNat 32 (rateConsts fps).sf + f ∧
      fieldsToCount fps df h.toNat m.toNat s.toNat f.toNat fp =
        if fps > 30 then base * 2 + BitVec.ofNat 32 fp.toNat else base) ∧
  (∀ (fps : Nat) (df fp : Bool) (h m s f : Nat), 1 ≤ fps → fps ≤ 49711 → h < 24 → ValidLabel fps df m s f →
    exactCount fps df h m s f fp < 2 ^ 32) ∧
  exactCount 49712 false 23 59 59 24855 true = 4295116799

/-- R84: above 30 fps the field-pair selector is bit 0 of the count, and at 30 fps or below it has no effect. -/
def Obligations.FieldPairIsBitZero : Prop :=
  ∀ (fps : Nat) (df fp : Bool) (h m s f : Nat),
    (fps > 30 → (fieldsToCount fps df h m s f fp).getLsbD 0 = fp) ∧
    (fps ≤ 30 → fieldsToCount fps df h m s f fp = fieldsToCount fps df h m s f (!fp))

/-- A missing drop-frame label counts as a label of the previous minute and decodes to it (41_load_encode.md R86), for
minutes below 60 where the decode is concerned. -/
def Obligations.MissingLabelAliasesAnEarlierFrame : Prop :=
  (∀ fps h m s f : Nat, 1 ≤ fps → fps ≤ 65535 → MissingLabel fps true m s f →
    fieldsToBase fps true h m s f + 2 =
      fieldsToBase fps true h m (2 / (rateConsts fps).sf) (2 % (rateConsts fps).sf) + (s * (rateConsts fps).sf + f)) ∧
  (∀ fps h m s f : Nat, 1 ≤ fps → fps ≤ 65535 → MissingLabel fps true m s f → 2 ≤ (rateConsts fps).sf →
    s = 0 ∧ f < 2 ∧ fieldsToBase fps true h m s f = fieldsToBase fps true h (m - 1) 59 ((rateConsts fps).sf - 2 + f)) ∧
  (∀ (fps h m s f : Nat) (fp : Bool), 1 ≤ fps → fps ≤ 65535 → MissingLabel fps true m s f → 2 ≤ (rateConsts fps).sf →
    m < 60 → exactCount fps true h m s f fp < 2 ^ 32 →
    countToFields fps true (fieldsToCount fps true h m s f fp).toNat = ⟨h, m - 1, 59, (rateConsts fps).sf - 2 + f⟩)

/-- R91 and R92: the base, and the non-drop-frame path. -/
def Obligations.NonDropFieldsFollowTheAlgorithm : Prop :=
  ∀ fps cnt : Nat, 1 ≤ fps → fps ≤ 65535 →
    ∃ base ts tm, base = (if fps > 30 then cnt / 2 else cnt) ∧ ts = base / (rateConsts fps).sf ∧ tm = ts / 60 ∧
      countToFields fps false cnt = ⟨tm / 60, tm % 60, ts % 60, base % (rateConsts fps).sf⟩

/-- R93: the drop-frame path, its two kinds of minutes, with the comparison of R94 on exact integers. -/
def Obligations.DropFieldsFollowTheAlgorithm : Prop :=
  ∀ fps cnt : Nat, 1 ≤ fps → fps ≤ 65535 →
    ∃ base h r major r1 r2 r3,
      base = (if fps > 30 then cnt / 2 else cnt) ∧ h = base / (rateConsts fps).dfph ∧ r = base % (rateConsts fps).dfph ∧
      major = r / (rateConsts fps).dfp10 ∧ r1 = r % (rateConsts fps).dfp10 ∧ r2 = r1 - (rateConsts fps).fpm ∧
      r3 = r2 % (rateConsts fps).dfpm ∧
      countToFields fps true cnt =
        if r1 < (rateConsts fps).fpm then ⟨h, major * 10, r1 / (rateConsts fps).sf, r1 % (rateConsts fps).sf⟩
        else if r3 + 2 < (rateConsts fps).sf then ⟨h, major * 10 + r2 / (rateConsts fps).dfpm + 1, 0, r3 + 2⟩
        else ⟨h, major * 10 + r2 / (rateConsts fps).dfpm + 1, (r3 + 2) / (rateConsts fps).sf,
          (r3 + 2) % (rateConsts fps).sf⟩

/-- R95: the two branches of the short-minute case give the same result as one formula. -/
def Obligations.ShortMinuteHasOneFormula : Prop :=
  ∀ sf h m r : Nat, 1 ≤ sf → shortMinuteFields sf h m r = ⟨h, m, (r + 2) / sf, (r + 2) % sf⟩

/-- R96: the ranges of the decoded fields, the bound of the hours and where it is reached, and that no missing label is ever
shown. -/
def Obligations.DecodedFieldsAreInRange : Prop :=
  (∀ (fps : Nat) (df : Bool) (c : Word32), 1 ≤ fps → fps ≤ 65535 →
    (countToFields fps df c.toNat).m ≤ 59 ∧ (countToFields fps df c.toNat).s ≤ 59 ∧
    (countToFields fps df c.toNat).f < (rateConsts fps).sf ∧ (countToFields fps df c.toNat).h ≤ 1229944 ∧
    ¬ MissingLabel fps df (countToFields fps df c.toNat).m (countToFields fps df c.toNat).s
      (countToFields fps df c.toNat).f) ∧
  1229944 < 2 ^ 21 ∧ countToFields 1 true (2 ^ 32 - 1) = ⟨1229944, 48, 55, 0⟩

/-- R97, the round-trip law: a valid label whose exact count is below 2^32 is given back by the decode. -/
def Obligations.ValidLabelRoundTrip : Prop :=
  ∀ (fps h m s f : Nat) (df fp : Bool), 1 ≤ fps → fps ≤ 65535 → ValidLabel fps df m s f →
    exactCount fps df h m s f fp < 2 ^ 32 →
    countToFields fps df (fieldsToCount fps df h m s f fp).toNat = ⟨h, m, s, f⟩

/-- R98, the converse law: the exact count of a decoded label, with the field it is in, is the count, so the decode is
one-to-one on bases. -/
def Obligations.CountRoundTrip : Prop :=
  (∀ (fps : Nat) (df : Bool) (c : Word32), 1 ≤ fps → fps ≤ 65535 →
    exactCount fps df (countToFields fps df c.toNat).h (countToFields fps df c.toNat).m (countToFields fps df c.toNat).s
      (countToFields fps df c.toNat).f (decide (fps > 30) && decide (c.toNat % 2 = 1)) = c.toNat) ∧
  (∀ (fps : Nat) (df : Bool) (c d : Word32), 1 ≤ fps → fps ≤ 65535 →
    countToFields fps df c.toNat = countToFields fps df d.toNat → countToBase fps c.toNat = countToBase fps d.toNat)

/-- R99: there is no wrap at 24 hours: hours are the base divided by the length of an hour, however large, and a base of a
whole number of hours, 24 among them, decodes to that many hours and zeros. -/
def Obligations.HoursNeverWrap : Prop :=
  ∀ (fps cnt : Nat) (df : Bool), 1 ≤ fps → fps ≤ 65535 →
    (countToFields fps df cnt).h =
      countToBase fps cnt / (if df = true then (rateConsts fps).dfph else (rateConsts fps).fph) ∧
    (∀ hours, countToBase fps cnt = hours * (if df = true then (rateConsts fps).dfph else (rateConsts fps).fph) →
      countToFields fps df cnt = ⟨hours, 0, 0, 0⟩)

/-- R110 to R112: the place of each digit in the BCD word; exact decimal digits up to 99, a tens nibble above 9 for 100 to
159, and above that the word of a smaller value. -/
def Obligations.BcdWordPlacesTheDigits : Prop :=
  (∀ t : Fields,
    (toBcd t).extractLsb' 28 4 = BitVec.ofNat 4 (t.h / 10) ∧ (toBcd t).extractLsb' 24 4 = BitVec.ofNat 4 (t.h % 10) ∧
    (toBcd t).extractLsb' 20 4 = BitVec.ofNat 4 (t.m / 10) ∧ (toBcd t).extractLsb' 16 4 = BitVec.ofNat 4 (t.m % 10) ∧
    (toBcd t).extractLsb' 12 4 = BitVec.ofNat 4 (t.s / 10) ∧ (toBcd t).extractLsb' 8 4 = BitVec.ofNat 4 (t.s % 10) ∧
    (toBcd t).extractLsb' 4 4 = BitVec.ofNat 4 (t.f / 10) ∧ (toBcd t).extractLsb' 0 4 = BitVec.ofNat 4 (t.f % 10)) ∧
  (∀ v : Nat, v ≤ 159 → (bcdDigits v).toNat = 16 * (v / 10) + v % 10) ∧
  (∀ v : Nat, 160 ≤ v → ∃ u, u < 160 ∧ u < v ∧ bcdDigits v = bcdDigits u)

/-- R114: the source's two BCD examples, at every rate and drop-frame bit the rule names, from any state. -/
def Obligations.SourceBcdExamplesHold : Prop :=
  (∀ (s : State) (fps : Word16) (df fp : Bool), 14 ≤ scaledFps fps.toNat →
    ∃ t, performAll [encode (.load df fp fps 10 11 12 13), encode .tobcd] s = .next t ∧
      t.res = ⟨0x10111213, 0, 0, 0⟩ ∧ t.status = .ok) ∧
  (∀ (s : State) (fps : Word16), fps ≠ 0 →
    ∃ t, performAll [encode (Instr.newTimecode fps false), encode .tobcd] s = .next t ∧ t.res = ⟨0, 0, 0, 0⟩ ∧
      t.status = .ok)

/-! ### Commands in sequence -/

/-- R102: above 30 fps the field mark is false at even and true at odd counters and every INCR changes it, also the one that
wraps the counter. -/
def Obligations.FieldMarkAlternates : Prop :=
  ∀ s : State, s.fps.toNat > 30 →
    s.fieldMark = decide (s.counter.toNat % 2 = 1) ∧ ∃ t, exec .incr s = .next t ∧ t.fieldMark = !s.fieldMark

/-- `n` increments that do not reach 2^32 leave the rate, the drop-frame flag and the counter as one LOAD does whose fields
encode to COUNTER + n (43_increment.md R108). The user bits are left out: LOAD clears them (log entry 7). -/
def Obligations.IncrementsEqualOneLoad : Prop :=
  ∀ (s : State) (n : Nat) (h m sec f : Word32) (fp : Bool), s.fps ≠ 0 → s.counter.toNat + n < 2 ^ 32 →
    fieldsToCount s.fps.toNat s.drop h.toNat m.toNat sec.toNat f.toNat fp = BitVec.ofNat 32 (s.counter.toNat + n) →
    ∃ t u, performAll ((Instr.advance n).map encode) s = .next t ∧ exec (.load s.drop fp s.fps h m sec f) s = .next u ∧
      t.fps = u.fps ∧ t.drop = u.drop ∧ t.counter = u.counter ∧ t.fields = u.fields ∧ t.fieldMark = u.fieldMark

/-- One INCR shows the next label: the same label in its second field, or the label one frame later, with frames 0 and 1
skipped at the start of every minute that is no multiple of 10 in drop-frame (00_scope.md R12, 43_increment.md R105, R107,
42_decode.md R93). For `sf` of at least 3, where a minute's two missing frames lie in its first second;
smaller rates and the wrap at 2^32 are in IncrAdvancesTheCounter, NonDropFieldsFollowTheAlgorithm and
DropFieldsFollowTheAlgorithm. -/
def Obligations.IncrementShowsTheFollowingLabel : Prop :=
  ∀ s : State, s.fps ≠ 0 → 3 ≤ (rateConsts s.fps.toNat).sf → s.counter ≠ 0xFFFFFFFF →
    ∃ t, exec .incr s = .next t ∧
      t.fields =
        if s.fps.toNat > 30 ∧ s.fieldMark = false then s.fields
        else s.fields.following (rateConsts s.fps.toNat).sf s.drop

/-- What DECODE and the field mark give can be fed back: a LOAD of them restores the counter (10_state.md R31,
41_load_encode.md R85, 42_decode.md R98, R100). -/
def Obligations.DecodeThenLoadRestoresTheCounter : Prop :=
  ∀ s : State, s.fps ≠ 0 →
    ∃ t u, exec .decode s = .next t ∧
      exec (.load s.drop s.fieldMark s.fps t.res.r0 t.res.r1 t.res.r2 t.res.r3) t = .next u ∧
      u.counter = s.counter ∧ u.fps = s.fps ∧ u.drop = s.drop ∧ u.fieldMark = s.fieldMark

/-- The boot order (70_reset_and_hazards.md R153): user bits written before a LOAD are lost, and those written after it are
kept by everything but another LOAD, a WRUB or a reset. -/
def Obligations.UserBitsBelongAfterLoad : Prop :=
  (∀ (s : State) (u : Word32) df fp fps h m sec f, fps ≠ 0 →
    ∃ t, performAll [encode (.wrub u), encode (.load df fp fps h m sec f)] s = .next t ∧ t.userBits = 0) ∧
  (∀ (s : State) (u : Word32) df fp fps h m sec f (is : List Instr),
    (∀ i ∈ is, (∀ v, i ≠ .wrub v) ∧ ∀ a b c d e g k, i ≠ .load a b c d e g k) →
    ∃ t, performAll ([encode (.load df fp fps h m sec f), encode (.wrub u)] ++ is.map encode) s = .next t ∧
      t.userBits = u)
end

