-- ==== Sys2Proof/Laws/Decode.lean ====
section
/-! SUPPORT. What the decoder answers for each opcode (30_encoding.md R56), for proofs to cite instead of unfolding it. -/

namespace Sys2Proof

theorem decodeRequest_nop {r : Request} (h : opcode r.cmd = 0x0) : decodeRequest r = decodeFormatN .nop r.cmd := by
  simp [decodeRequest, h]

theorem decodeRequest_incr {r : Request} (h : opcode r.cmd = 0x2) : decodeRequest r = decodeFormatN .incr r.cmd := by
  simp [decodeRequest, h]

theorem decodeRequest_decode {r : Request} (h : opcode r.cmd = 0x3) : decodeRequest r = decodeFormatN .decode r.cmd := by
  simp [decodeRequest, h]

theorem decodeRequest_tobcd {r : Request} (h : opcode r.cmd = 0x4) : decodeRequest r = decodeFormatN .tobcd r.cmd := by
  simp [decodeRequest, h]

theorem decodeRequest_rdflags {r : Request} (h : opcode r.cmd = 0x5) : decodeRequest r = decodeFormatN .rdflags r.cmd := by
  simp [decodeRequest, h]

theorem decodeRequest_rdub {r : Request} (h : opcode r.cmd = 0x6) : decodeRequest r = decodeFormatN .rdub r.cmd := by
  simp [decodeRequest, h]

theorem decodeRequest_wrub {r : Request} (h : opcode r.cmd = 0x7) : decodeRequest r = decodeFormatN (.wrub r.operands.ubIn) r.cmd := by
  simp [decodeRequest, h]

theorem decodeRequest_rdcnt {r : Request} (h : opcode r.cmd = 0x8) : decodeRequest r = decodeFormatN .rdcnt r.cmd := by
  simp [decodeRequest, h]

theorem decodeRequest_load {r : Request} (h : opcode r.cmd = 0x1) : decodeRequest r = decodeFormatL r := by
  simp [decodeRequest, h]

theorem decodeRequest_rdrate {r : Request} (h : opcode r.cmd = 0x9) : decodeRequest r = decodeFormatR r.cmd := by
  simp [decodeRequest, h]

/-- Every opcode is one of the ten of the map or one of the six reserved ones (30_encoding.md R56). -/
theorem opcode_cases (op : BitVec 4) :
    op = 0x0 ∨ op = 0x1 ∨ op = 0x2 ∨ op = 0x3 ∨ op = 0x4 ∨ op = 0x5 ∨ op = 0x6 ∨ op = 0x7 ∨ op = 0x8 ∨ op = 0x9 ∨
      10 ≤ op.toNat := by
  revert op
  decide

theorem decodeRequest_reserved {r : Request} (h : 10 ≤ (opcode r.cmd).toNat) :
    decodeRequest r = .error (.reservedOpcode (opcode r.cmd)) := by
  unfold decodeRequest
  split <;> first | omega | rfl

theorem decodeFormatN_zero {i : Instr} {c : CmdWord} (h : formatBits c = 0) : decodeFormatN i c = .ok i := by
  simp [decodeFormatN, show formatBits c = 0#4 from h]

theorem decodeFormatN_set {i : Instr} {c : CmdWord} (h : formatBits c ≠ 0) :
    decodeFormatN i c = .error (.reservedBits c) := by
  simp [decodeFormatN, show ¬ formatBits c = 0#4 from h]

end Sys2Proof
end

