-- ==== Sys2Proof/Laws/State.lean ====
section
/-! SUPPORT. The small lemmas of the register updates: one per field per update, so that no proof unfolds an update. -/

namespace Sys2Proof.Machine

section Finish
variable (code : Status) (r : Results) (s : State)
@[simp] theorem State.finish_fps : (s.finish code r).fps = s.fps := rfl
@[simp] theorem State.finish_drop : (s.finish code r).drop = s.drop := rfl
@[simp] theorem State.finish_counter : (s.finish code r).counter = s.counter := rfl
@[simp] theorem State.finish_userBits : (s.finish code r).userBits = s.userBits := rfl
@[simp] theorem State.finish_res : (s.finish code r).res = r := rfl
@[simp] theorem State.finish_status : (s.finish code r).status = code := rfl
@[simp] theorem State.finish_cmdReady : (s.finish code r).cmdReady = s.cmdReady := rfl
@[simp] theorem State.finish_rspValid : (s.finish code r).rspValid = s.rspValid := rfl
@[simp] theorem State.finish_inFlight : (s.finish code r).inFlight = s.inFlight := rfl
@[simp] theorem State.finish_host : (s.finish code r).host = s.host := rfl
end Finish

section Construct
variable (v : Word16) (df : Bool) (c : Word32) (s : State)
@[simp] theorem State.construct_fps : (s.construct v df c).fps = v := rfl
@[simp] theorem State.construct_drop : (s.construct v df c).drop = df := rfl
@[simp] theorem State.construct_counter : (s.construct v df c).counter = c := rfl
@[simp] theorem State.construct_userBits : (s.construct v df c).userBits = 0 := rfl
@[simp] theorem State.construct_res : (s.construct v df c).res = s.res := rfl
@[simp] theorem State.construct_status : (s.construct v df c).status = s.status := rfl
@[simp] theorem State.construct_cmdReady : (s.construct v df c).cmdReady = s.cmdReady := rfl
@[simp] theorem State.construct_rspValid : (s.construct v df c).rspValid = s.rspValid := rfl
@[simp] theorem State.construct_inFlight : (s.construct v df c).inFlight = s.inFlight := rfl
@[simp] theorem State.construct_host : (s.construct v df c).host = s.host := rfl
end Construct

section SetCounter
variable (v : Word32) (s : State)
@[simp] theorem State.setCounter_fps : (s.setCounter v).fps = s.fps := rfl
@[simp] theorem State.setCounter_drop : (s.setCounter v).drop = s.drop := rfl
@[simp] theorem State.setCounter_counter : (s.setCounter v).counter = v := rfl
@[simp] theorem State.setCounter_userBits : (s.setCounter v).userBits = s.userBits := rfl
@[simp] theorem State.setCounter_res : (s.setCounter v).res = s.res := rfl
@[simp] theorem State.setCounter_status : (s.setCounter v).status = s.status := rfl
@[simp] theorem State.setCounter_cmdReady : (s.setCounter v).cmdReady = s.cmdReady := rfl
@[simp] theorem State.setCounter_rspValid : (s.setCounter v).rspValid = s.rspValid := rfl
@[simp] theorem State.setCounter_inFlight : (s.setCounter v).inFlight = s.inFlight := rfl
@[simp] theorem State.setCounter_host : (s.setCounter v).host = s.host := rfl
end SetCounter

section SetUserBits
variable (v : Word32) (s : State)
@[simp] theorem State.setUserBits_fps : (s.setUserBits v).fps = s.fps := rfl
@[simp] theorem State.setUserBits_drop : (s.setUserBits v).drop = s.drop := rfl
@[simp] theorem State.setUserBits_counter : (s.setUserBits v).counter = s.counter := rfl
@[simp] theorem State.setUserBits_userBits : (s.setUserBits v).userBits = v := rfl
@[simp] theorem State.setUserBits_res : (s.setUserBits v).res = s.res := rfl
@[simp] theorem State.setUserBits_status : (s.setUserBits v).status = s.status := rfl
@[simp] theorem State.setUserBits_cmdReady : (s.setUserBits v).cmdReady = s.cmdReady := rfl
@[simp] theorem State.setUserBits_rspValid : (s.setUserBits v).rspValid = s.rspValid := rfl
@[simp] theorem State.setUserBits_inFlight : (s.setUserBits v).inFlight = s.inFlight := rfl
@[simp] theorem State.setUserBits_host : (s.setUserBits v).host = s.host := rfl
end SetUserBits

section ResetRegisters
variable (s : State)
@[simp] theorem State.resetRegisters_fps : (s.resetRegisters).fps = 0 := rfl
@[simp] theorem State.resetRegisters_drop : (s.resetRegisters).drop = false := rfl
@[simp] theorem State.resetRegisters_counter : (s.resetRegisters).counter = 0 := rfl
@[simp] theorem State.resetRegisters_userBits : (s.resetRegisters).userBits = 0 := rfl
@[simp] theorem State.resetRegisters_res : (s.resetRegisters).res = .zero := rfl
@[simp] theorem State.resetRegisters_status : (s.resetRegisters).status = .ok := rfl
@[simp] theorem State.resetRegisters_cmdReady : (s.resetRegisters).cmdReady = true := rfl
@[simp] theorem State.resetRegisters_rspValid : (s.resetRegisters).rspValid = false := rfl
@[simp] theorem State.resetRegisters_inFlight : (s.resetRegisters).inFlight = none := rfl
@[simp] theorem State.resetRegisters_host : (s.resetRegisters).host = s.host := rfl
end ResetRegisters

section SetHost
variable (h : List HostEvent) (s : State)
@[simp] theorem State.setHost_fps : (s.setHost h).fps = s.fps := rfl
@[simp] theorem State.setHost_drop : (s.setHost h).drop = s.drop := rfl
@[simp] theorem State.setHost_counter : (s.setHost h).counter = s.counter := rfl
@[simp] theorem State.setHost_userBits : (s.setHost h).userBits = s.userBits := rfl
@[simp] theorem State.setHost_res : (s.setHost h).res = s.res := rfl
@[simp] theorem State.setHost_status : (s.setHost h).status = s.status := rfl
@[simp] theorem State.setHost_cmdReady : (s.setHost h).cmdReady = s.cmdReady := rfl
@[simp] theorem State.setHost_rspValid : (s.setHost h).rspValid = s.rspValid := rfl
@[simp] theorem State.setHost_inFlight : (s.setHost h).inFlight = s.inFlight := rfl
@[simp] theorem State.setHost_host : (s.setHost h).host = h := rfl
end SetHost

section Accept
variable (r : Request) (n : Nat) (s : State)
@[simp] theorem State.accept_fps : (s.accept r n).fps = s.fps := rfl
@[simp] theorem State.accept_drop : (s.accept r n).drop = s.drop := rfl
@[simp] theorem State.accept_counter : (s.accept r n).counter = s.counter := rfl
@[simp] theorem State.accept_userBits : (s.accept r n).userBits = s.userBits := rfl
@[simp] theorem State.accept_res : (s.accept r n).res = s.res := rfl
@[simp] theorem State.accept_status : (s.accept r n).status = s.status := rfl
@[simp] theorem State.accept_cmdReady : (s.accept r n).cmdReady = false := rfl
@[simp] theorem State.accept_rspValid : (s.accept r n).rspValid = false := rfl
@[simp] theorem State.accept_inFlight : (s.accept r n).inFlight = some ⟨r, n⟩ := rfl
@[simp] theorem State.accept_host : (s.accept r n).host = s.host := rfl
end Accept

section Wait
variable (r : Request) (n : Nat) (s : State)
@[simp] theorem State.wait_fps : (s.wait r n).fps = s.fps := rfl
@[simp] theorem State.wait_drop : (s.wait r n).drop = s.drop := rfl
@[simp] theorem State.wait_counter : (s.wait r n).counter = s.counter := rfl
@[simp] theorem State.wait_userBits : (s.wait r n).userBits = s.userBits := rfl
@[simp] theorem State.wait_res : (s.wait r n).res = s.res := rfl
@[simp] theorem State.wait_status : (s.wait r n).status = s.status := rfl
@[simp] theorem State.wait_cmdReady : (s.wait r n).cmdReady = s.cmdReady := rfl
@[simp] theorem State.wait_rspValid : (s.wait r n).rspValid = false := rfl
@[simp] theorem State.wait_inFlight : (s.wait r n).inFlight = some ⟨r, n⟩ := rfl
@[simp] theorem State.wait_host : (s.wait r n).host = s.host := rfl
end Wait

section Idle
variable (s : State)
@[simp] theorem State.idle_fps : (s.idle).fps = s.fps := rfl
@[simp] theorem State.idle_drop : (s.idle).drop = s.drop := rfl
@[simp] theorem State.idle_counter : (s.idle).counter = s.counter := rfl
@[simp] theorem State.idle_userBits : (s.idle).userBits = s.userBits := rfl
@[simp] theorem State.idle_res : (s.idle).res = s.res := rfl
@[simp] theorem State.idle_status : (s.idle).status = s.status := rfl
@[simp] theorem State.idle_cmdReady : (s.idle).cmdReady = s.cmdReady := rfl
@[simp] theorem State.idle_rspValid : (s.idle).rspValid = false := rfl
@[simp] theorem State.idle_inFlight : (s.idle).inFlight = s.inFlight := rfl
@[simp] theorem State.idle_host : (s.idle).host = s.host := rfl
end Idle

section Respond
variable (s : State)
@[simp] theorem State.respond_fps : (s.respond).fps = s.fps := rfl
@[simp] theorem State.respond_drop : (s.respond).drop = s.drop := rfl
@[simp] theorem State.respond_counter : (s.respond).counter = s.counter := rfl
@[simp] theorem State.respond_userBits : (s.respond).userBits = s.userBits := rfl
@[simp] theorem State.respond_res : (s.respond).res = s.res := rfl
@[simp] theorem State.respond_status : (s.respond).status = s.status := rfl
@[simp] theorem State.respond_cmdReady : (s.respond).cmdReady = true := rfl
@[simp] theorem State.respond_rspValid : (s.respond).rspValid = true := rfl
@[simp] theorem State.respond_inFlight : (s.respond).inFlight = none := rfl
@[simp] theorem State.respond_host : (s.respond).host = s.host := rfl
end Respond

/-- A completed command is a `finish`: its field lemmas above apply. -/
@[simp] theorem done_eq (r : Results) (s : State) : done r s = s.finish .ok r := rfl

/-- A failed command is a `finish` with zero results (60_exceptions.md R132). -/
@[simp] theorem fail_eq (code : Status) (s : State) : fail code s = s.finish code .zero := rfl

end Sys2Proof.Machine
end

