-- ==== Sys2Proof/Laws/Ops.lean ====
section
/-! SUPPORT. One lemma per shared operation that says everything it can do, for proofs to cite instead of unfolding it. -/

namespace Sys2Proof.Machine

/-! ### The rate check and the shape of outcomes -/

theorem guardRate_unconfigured {s t : State} (h : s.fps = 0) : guardRate s t = .next (s.finish .unconfig .zero) :=
  if_pos h

theorem guardRate_configured {s t : State} (h : s.fps ≠ 0) : guardRate s t = .next t :=
  if_neg h

/-- What the rate check can answer: UNCONFIG while unconfigured, else the command's own state. -/
theorem guardRate_cases {s t u : State} (h : guardRate s t = .next u) :
    (s.fps = 0 ∧ u = s.finish .unconfig .zero) ∨ (s.fps ≠ 0 ∧ u = t) := by
  by_cases hs : s.fps = 0
  · rw [guardRate_unconfigured hs] at h
    exact .inl ⟨hs, (Host.Outcome.next.inj h).symm⟩
  · rw [guardRate_configured hs] at h
    exact .inr ⟨hs, (Host.Outcome.next.inj h).symm⟩

@[simp] theorem mapNext_next (f : State → State) (s : State) : mapNext f (.next s) = .next (f s) := rfl

theorem mapNext_cases {f : State → State} {o : Host.Outcome State Fault Refusal} {t : State}
    (h : mapNext f o = .next t) : ∃ u, o = .next u ∧ t = f u := by
  cases o with
  | next u => exact ⟨u, rfl, (Host.Outcome.next.inj h).symm⟩
  | fault r => exact absurd h (by simp [mapNext])
  | refused r => exact absurd h (by simp [mapNext])

/-! ### The command step -/

theorem perform_legal {r : Request} {i : Instr} (s : State) (h : decodeRequest r = .ok i) : perform r s = exec i s := by
  simp [perform, h]

theorem perform_illegal {r : Request} {e : DecodeError} (s : State) (h : decodeRequest r = .error e) :
    perform r s = .next (s.finish .illegal .zero) := by
  simp [perform, h]

/-- What the command step can do: run the decoded command, or fail with ILLEGAL (30_encoding.md R59). -/
theorem perform_cases {r : Request} {s t : State} (h : perform r s = .next t) :
    (∃ i, decodeRequest r = .ok i ∧ exec i s = .next t) ∨
      (∃ e, decodeRequest r = .error e ∧ t = s.finish .illegal .zero) := by
  cases hd : decodeRequest r with
  | ok i => exact .inl ⟨i, rfl, by rw [← perform_legal s hd, h]⟩
  | error e =>
    rw [perform_illegal s hd] at h
    exact .inr ⟨e, rfl, (Host.Outcome.next.inj h).symm⟩

theorem complete_cases {r : Request} {s t : State} (h : complete r s = .next t) :
    ∃ u, perform r s = .next u ∧ t = u.respond := mapNext_cases h

/-! ### The two step functions -/

/-- What one transaction-level step can do: reset, complete the command in flight, accept and complete the host's next
command, or idle. -/
theorem step_cases {s t : State} (h : step s = .next t) :
    (∃ rest, s.host = .reset :: rest ∧ t = (s.setHost rest).resetRegisters) ∨
    (∃ flight, s.inFlight = some flight ∧ complete flight.request s = .next t) ∨
    (∃ r rest, s.host = .command r :: rest ∧ s.inFlight = none ∧ complete r (s.setHost rest) = .next t) ∨
    (s.host = [] ∧ s.inFlight = none ∧ t = s.idle) := by
  unfold step hostStep at h
  split at h
  · next rest hh => exact .inl ⟨rest, hh, (Host.Outcome.next.inj h).symm⟩
  · next flight hf _ => exact .inr (.inl ⟨flight, hf, h⟩)
  · next r rest hh hf => exact .inr (.inr (.inl ⟨r, rest, hh, hf, h⟩))
  · next hh hf => exact .inr (.inr (.inr ⟨hh, hf, (Host.Outcome.next.inj h).symm⟩))

/-- What one rising edge can do: reset, complete the command in flight, come one edge nearer to its completion, accept a
command, or idle. -/
theorem clockEdge_cases {p : PortsIn} {s t : State} (h : clockEdge p s = .next t) :
    (p.rst = true ∧ t = s.resetRegisters) ∨
    (p.rst = false ∧ ∃ flight, s.inFlight = some flight ∧
      ((flight.edgesLeft ≤ 1 ∧ complete flight.request s = .next t) ∨
        (1 < flight.edgesLeft ∧ t = s.wait flight.request (flight.edgesLeft - 1)))) ∨
    (p.rst = false ∧ s.inFlight = none ∧
      ((p.cmdValid = true ∧ s.cmdReady = true ∧ t = s.accept p.request (latency p.request.cmd)) ∨
        ((p.cmdValid && s.cmdReady) = false ∧ t = s.idle))) := by
  unfold clockEdge at h
  split at h
  · next hr => exact .inl ⟨hr, (Host.Outcome.next.inj h).symm⟩
  · next hr =>
    have hr' : p.rst = false := by simpa using hr
    split at h
    · next flight hf =>
      refine .inr (.inl ⟨hr', flight, hf, ?_⟩)
      split at h
      · next he => exact .inl ⟨he, h⟩
      · next he => exact .inr ⟨by omega, (Host.Outcome.next.inj h).symm⟩
    · next hf =>
      refine .inr (.inr ⟨hr', hf, ?_⟩)
      split at h
      · next hv =>
        rw [Bool.and_eq_true] at hv
        exact .inl ⟨hv.1, hv.2, (Host.Outcome.next.inj h).symm⟩
      · next hv => exact .inr ⟨by simpa using hv, (Host.Outcome.next.inj h).symm⟩

/-- Every implementation takes at least one edge (70_reset_and_hazards.md R156). -/
theorem latency_pos (cmd : CmdWord) : 1 ≤ latency cmd := by
  unfold latency
  omega

@[simp] theorem clockEdges_nil (s : State) : clockEdges [] s = .next s := rfl

theorem clockEdges_cons {p : PortsIn} {s t : State} (ps : List PortsIn) (h : clockEdge p s = .next t) :
    clockEdges (p :: ps) s = clockEdges ps t := by
  simp [clockEdges, h]

@[simp] theorem performAll_nil (s : State) : performAll [] s = .next s := rfl

theorem performAll_cons {r : Request} {s t : State} (rs : List Request) (h : perform r s = .next t) :
    performAll (r :: rs) s = performAll rs t := by
  simp [performAll, h]

end Sys2Proof.Machine
end

