-- ==== Sys2Proof/Laws/PerInstr.lean ====
section
/-! SUPPORT. The per-command family EncodesLegally: the word of a well-formed command is one that 30_encoding.md R57 calls
legal, whatever its operands. -/

namespace Sys2Proof.Laws.EncodesLegally

/-- The encoding of a well-formed command is a legal command word (30_encoding.md R57). -/
def Statement (i : Instr) : Prop := WellFormed i = true → legal (encode i).cmd = true

theorem nop : Statement .nop := fun _ => by decide

theorem load (df fp : Bool) (fpsIn : Word16) (hIn mIn sIn fIn : Word32) :
    Statement (.load df fp fpsIn hIn mIn sIn fIn) := by
  intro h
  clear h
  show legal (0b00#2 ++ BitVec.ofBool fp ++ BitVec.ofBool df ++ 0x1#4) = true
  revert df fp
  decide

theorem incr : Statement .incr := fun _ => by decide

theorem decode : Statement .decode := fun _ => by decide

theorem tobcd : Statement .tobcd := fun _ => by decide

theorem rdflags : Statement .rdflags := fun _ => by decide

theorem rdub : Statement .rdub := fun _ => by decide

theorem wrub (ubIn : Word32) : Statement (.wrub ubIn) := by
  intro _
  show legal (encodeFormatN 0x7) = true
  decide

theorem rdcnt : Statement .rdcnt := fun _ => by decide

theorem rdrate (sel : BitVec 3) : Statement (.rdrate sel) := by
  revert sel
  unfold Statement
  decide

end Sys2Proof.Laws.EncodesLegally
end

