-- ==== Sys2Proof/Tests/Slice0.lean ====
section
/-! SUPPORT. Tests on fixed values, each with the place of spec/ its expected value comes from, and for every statement with
hypotheses a witness that meets them, at the boundary values of each clause. -/

namespace Sys2Proof.Tests

open Sys2Proof.Machine

/-- A configured state with the given rate, drop-frame flag and counter. -/
def at_ (fps : Word16) (drop : Bool) (counter : Word32) : State :=
  { State.reset with fps := fps, drop := drop, counter := counter }

/-- The state of a next outcome (reset for the others, which no command has). -/
def after (o : Host.Outcome State Fault Refusal) : State :=
  match o with
  | .next s => s
  | _ => State.reset

/-! ### Well-formedness: the one check, and the terms it refuses (30_encoding.md R54) -/

theorem test_wellFormed_refuses_sel6 : WellFormed (.rdrate 6) = false := by decide
theorem test_wellFormed_refuses_sel7 : WellFormed (.rdrate 7) = false := by decide
theorem test_wellFormed_admits_sel5 : WellFormed (.rdrate 5) = true := by decide

/-! ### Decoding: words written out bit by bit from 30_encoding.md R51 and R56, every constructor -/

theorem test_decode_nop : decodeTableWord 8 0b00000000 = some .nop := by decide
theorem test_decode_load : decodeTableWord 8 0b00000001 = some (.load false false 0 0 0 0 0) := by decide
theorem test_decode_load_df : decodeTableWord 8 0b00010001 = some (.load true false 0 0 0 0 0) := by decide
theorem test_decode_load_fp : decodeTableWord 8 0b00100001 = some (.load false true 0 0 0 0 0) := by decide
theorem test_decode_incr : decodeTableWord 8 0b00000010 = some .incr := by decide
theorem test_decode_decode : decodeTableWord 8 0b00000011 = some .decode := by decide
theorem test_decode_tobcd : decodeTableWord 8 0b00000100 = some .tobcd := by decide
theorem test_decode_rdflags : decodeTableWord 8 0b00000101 = some .rdflags := by decide
theorem test_decode_rdub : decodeTableWord 8 0b00000110 = some .rdub := by decide
theorem test_decode_wrub : decodeTableWord 8 0b00000111 = some (.wrub 0) := by decide
theorem test_decode_rdcnt : decodeTableWord 8 0b00001000 = some .rdcnt := by decide
theorem test_decode_rdrate0 : decodeTableWord 8 0b00001001 = some (.rdrate 0) := by decide
theorem test_decode_rdrate5 : decodeTableWord 8 0b01011001 = some (.rdrate 5) := by decide
theorem test_decode_operands :
    decodeRequest (Request.ofBits (0x31 + 60 * 2 ^ 8 + 10 * 2 ^ 24 + 11 * 2 ^ 56 + 12 * 2 ^ 88 + 13 * 2 ^ 120)) =
      .ok (.load true true 60 10 11 12 13) := by decide
theorem test_decode_refuses_sel6 : decodeTableWord 8 0b01101001 = none := by decide
theorem test_decode_refuses_format_n_bit4 : decodeTableWord 8 0x12 = none := by decide
theorem test_decode_refuses_format_l_bit6 : decodeTableWord 8 0x41 = none := by decide
theorem test_decode_refuses_format_r_bit7 : decodeTableWord 8 0x89 = none := by decide
theorem test_decode_refuses_reserved : decodeTableWord 8 0x0F = none := by decide

/-- Legal words per opcode: 8 of format N, 4 of format L, 6 of format R (30_encoding.md R57). -/
theorem test_legal_words_per_opcode :
    ((List.range 16).map fun op => (List.range 16).countP fun hi => legal (BitVec.ofNat 8 (16 * hi + op))) =
      [1, 4, 1, 1, 1, 1, 1, 1, 1, 6, 0, 0, 0, 0, 0, 0] := by decide

/-! ### The first command after reset (95_test_vectors.md V7, V8) -/

theorem test_first_rdcnt : (after (step (State.reset.withFetchWord 8 0x08))).status = .ok := by decide
theorem test_first_incr_unconfig : (after (step (State.reset.withFetchWord 8 0x02))).status = .unconfig := by decide
theorem test_first_load_badfps : (after (step (State.reset.withFetchWord 8 0x01))).status = .badFps := by decide
theorem test_first_reserved_illegal : (after (step (State.reset.withFetchWord 8 0x0F))).status = .illegal := by decide
theorem test_illegal_before_badfps : (after (step (State.reset.withFetchWord 8 0xC1))).status = .illegal := by decide

/-! ### The commands -/

/-- 41_load_encode.md R87. -/
theorem test_load_drop : (after (execLoad true false 30 10 11 12 13 State.reset)).counter = 1099073 := by decide
/-- 95_test_vectors.md V2: wraps modulo 2^32. -/
theorem test_load_wraps : (after (execLoad false true 65535 23 59 59 32766 State.reset)).counter = 1367170303 := by decide
/-- 43_increment.md R105. -/
theorem test_incr_drop_boundary : (after (execIncr (at_ 30 true 1799))).fields = ⟨0, 1, 0, 2⟩ := by decide
/-- 43_increment.md R106. -/
theorem test_incr_wraps : (after (execIncr (at_ 1 false 4294967295))).counter = 0 := by decide
/-- 42_decode.md R103: the largest count. -/
theorem test_decode_largest : (after (execDecode (at_ 30 true 4294967295))).res = ⟨39808, 1, 25, 11⟩ := by decide
/-- 95_test_vectors.md V3: at sf = 1 the comparison is exact (42_decode.md R94). -/
theorem test_decode_sf1 : (after (execDecode (at_ 1 true 60))).res = ⟨0, 1, 2, 0⟩ := by decide
/-- 44_bcd.md R113. -/
theorem test_tobcd : (after (execTobcd (at_ 30 true 1099073))).res.r0 = 0x10111213 := by decide
/-- 44_bcd.md R115: a field of 160 or more aliases. -/
theorem test_tobcd_aliases : (after (execTobcd (at_ 1 true 4294967295))).res.r0 = 0x24485500 := by decide
/-- 95_test_vectors.md V6. -/
theorem test_rdflags_both : (after (execRdflags (at_ 60 true 2198147))).res.r0 = 3 := by decide
/-- 95_test_vectors.md V6: no field mark at 30 fps. -/
theorem test_rdflags_30 : (after (execRdflags (at_ 30 true 1))).res.r0 = 1 := by decide
/-- 40_rate_table.md R76. -/
theorem test_rdrate_dfph : (after (execRdrate 5 (at_ 65535 false 0))).res.r0 = 117961092 := by decide
/-- 40_rate_table.md R73: odd rates round down. -/
theorem test_rdrate_odd : (after (execRdrate 0 (at_ 31 false 0))).res.r0 = 15 := by decide
/-- 45_access.md R123, R122. -/
theorem test_wrub_rdub : (after (execRdub (after (execWrub 0xDEADBEEF State.reset)))).res.r0 = 0xDEADBEEF := by decide
/-- 45_access.md R121. -/
theorem test_rdcnt : (after (execRdcnt (at_ 60 true 2198147))).res.r0 = 2198147 := by decide
/-- 45_access.md R120: NOP clears an error status. -/
theorem test_nop_clears : (after (execNop (fail .illegal State.reset))).status = .ok := by decide

/-! ### The assembler (30_encoding.md R61) -/

theorem test_asm_fp_alone : assembleLine "LOAD 50, 10, 11, 12, 13, fp=1".toList = some [.load false true 50 10 11 12 13] := by
  decide
theorem test_asm_sel_name : assembleLine "RDRATE dfp10".toList = some [.rdrate 4] := by decide
theorem test_asm_rejects : assembleLine "LOAD 65536, 0, 0, 0, 0".toList = none := by decide
theorem test_asm_program : assemble ["NEW 30, df=1".toList, "ADVANCE 2".toList] =
    some [.load true false 30 0 0 0 0, .incr, .incr] := by decide

/-! ### Witnesses: each statement's hypotheses can be met -/

/-- A port level with no command and no reset. -/
def quiet : PortsIn := ⟨false, false, ⟨0, .zero⟩⟩

/-- A host that presents INCR. -/
def offers : PortsIn := ⟨false, true, ⟨0x02, .zero⟩⟩

theorem witness_DecodeEncodeRoundTrip : WellFormed (.rdrate 5) = true ∧ WellFormed (.load true true 65535 0 0 0 0) = true := by
  decide
theorem witness_DecodedCommandKeepsItsWord_load :
    decodeRequest ⟨0x31, ⟨65535, 1, 2, 3, 4, 5⟩⟩ = .ok (.load true true 65535 1 2 3 4) := by decide
theorem witness_DecodedCommandKeepsItsWord_wrub :
    decodeRequest ⟨0x07, ⟨1, 1, 2, 3, 4, 0xFFFFFFFF⟩⟩ = .ok (.wrub 0xFFFFFFFF) := by decide
theorem witness_LegalWordsAndIllegalWords : legal 0xFF = false ∧ legal 0x69 = false ∧ legal 0x0A = false := by decide
theorem witness_UnusedInputsHaveNoEffect :
    (opcode 0x08 ≠ 0x1 ∧ opcode 0x08 ≠ 0x7) ∧ opcode 0x07 = 0x7 ∧ opcode 0x31 = 0x1 := by decide
theorem witness_PseudoCommandsExpand : (at_ 1 false 0xFFFFFFFF).fps ≠ 0 ∧ (at_ 65535 true 0).fps ≠ 0 := by decide

/-- A state about to run INCR. -/
def aboutToIncr : State := (at_ 30 true 1799).withFetchWord 8 0x02

/-- A state with INCR in flight, at its completing edge. -/
def inFlightIncr : State := { at_ 30 true 1799 with cmdReady := false, inFlight := some ⟨⟨0x02, .zero⟩, 1⟩ }

theorem witness_StepRunsTheDecodedCommand :
    aboutToIncr.host = [.command ⟨0x02, .zero⟩] ∧ aboutToIncr.inFlight = none ∧
      decodeRequest ⟨0x02, .zero⟩ = .ok .incr := by decide
theorem witness_StepOnTheOtherEvents_illegal :
    (State.reset.withFetchWord 8 0x0F).host = [.command ⟨0x0F, .zero⟩] ∧
      (State.reset.withFetchWord 8 0x0F).inFlight = none ∧ legal 0x0F = false := by decide
theorem witness_StepOnTheOtherEvents_reset :
    ({ inFlightIncr with host := [.reset] } : State).host = [.reset] ∧ inFlightIncr.inFlight.isSome = true := by decide
theorem witness_StepOnTheOtherEvents_flight :
    inFlightIncr.inFlight = some ⟨⟨0x02, .zero⟩, 1⟩ ∧ ∀ rest, inFlightIncr.host ≠ .reset :: rest :=
  ⟨by decide, fun _ h => by cases h⟩
theorem witness_StepOnTheOtherEvents_idle : State.reset.host = [] ∧ State.reset.inFlight = none := by decide
theorem witness_RunAppliesCommandsInOrder :
    ([⟨0x02, .zero⟩] : List Request) ≠ [] ∧ aboutToIncr.inFlight = none ∧
      aboutToIncr.host = [⟨0x02, .zero⟩].map .command := by decide
theorem witness_StepKeepsInv : aboutToIncr.Inv ∧ step aboutToIncr = .next (after (step aboutToIncr)) :=
  ⟨by decide, rfl⟩
theorem witness_ClockEdgeKeepsInv :
    inFlightIncr.Inv ∧ clockEdge quiet inFlightIncr = .next (after (clockEdge quiet inFlightIncr)) :=
  ⟨by decide, rfl⟩
theorem witness_ConfiguredUntilReset :
    step aboutToIncr = .next (after (step aboutToIncr)) ∧ aboutToIncr.fps ≠ 0 := ⟨rfl, by decide⟩
theorem witness_ResetEdgeSetsEveryRegister :
    ({ quiet with rst := true } : PortsIn).rst = true ∧ offers.rst = false ∧ offers.cmdValid = true := by decide
theorem witness_ResetDiscardsTheFlight :
    inFlightIncr.inFlight = some ⟨⟨0x02, .zero⟩, 1⟩ ∧ ({ quiet with rst := true } : PortsIn).rst = true ∧
      ∀ q ∈ [quiet, quiet], q.rst = false ∧ q.cmdValid = false := by decide
theorem witness_RegistersHoldDuringTheFlight :
    (at_ 30 true 1799).inFlight = none ∧ (at_ 30 true 1799).cmdReady = true ∧ offers.rst = false ∧
      offers.cmdValid = true ∧ (∀ q ∈ ([] : List PortsIn), q.rst = false) ∧
      ([] : List PortsIn).length < latency offers.request.cmd :=
  ⟨by decide, by decide, by decide, by decide, by decide, latency_pos _⟩
/-- Also the witness of ResponseCarriesStatusAndResults. -/
theorem witness_EdgesUntilCompletionAreOneStep :
    (at_ 30 true 1799).inFlight = none ∧ (at_ 30 true 1799).cmdReady = true ∧ offers.rst = false ∧
      offers.cmdValid = true ∧ (∀ q ∈ List.replicate (latency offers.request.cmd) offers, q.rst = false) ∧
      (List.replicate (latency offers.request.cmd) offers).length = latency offers.request.cmd :=
  ⟨by decide, by decide, by decide, by decide, fun q hq => by rw [List.eq_of_mem_replicate hq]; rfl, List.length_replicate⟩
theorem witness_ResponseIsOnePulse :
    clockEdge quiet inFlightIncr = .next (after (clockEdge quiet inFlightIncr)) ∧
      (after (clockEdge quiet inFlightIncr)).rspValid = true := ⟨rfl, by decide⟩
theorem witness_InputsIgnoredWhileNotReady : inFlightIncr.cmdReady = false ∧ offers.rst = quiet.rst := by decide
theorem witness_FailedCommandIsPrecise :
    (after (perform ⟨0x0F, .zero⟩ (at_ 30 true 1799))).status ≠ .ok := by decide
theorem witness_CommandsThatNeedTheRate :
    legal 0x59 = true ∧ needsRate (opcode 0x59) = true ∧ State.reset.fps = 0 ∧ needsRate (opcode 0x31) = false ∧
      (at_ 1 false 0).fps ≠ 0 ∧ decodeRequest ⟨0x59, .zero⟩ = .ok (.rdrate 5) := by decide
theorem witness_UserBitsAreOpaque :
    exec (.wrub 7) State.reset = .next (after (exec (.wrub 7) State.reset)) ∧ Instr.decode ≠ .rdub := ⟨rfl, by decide⟩
theorem witness_ReadCommandsAreIdempotent : Instr.rdrate 5 = .rdrate 5 ∧ Instr.decode = .decode := by decide
theorem witness_commands_of_format_n :
    opcode 0x00 = 0x0 ∧ opcode 0x12 = 0x2 ∧ opcode 0x03 = 0x3 ∧ opcode 0xF4 = 0x4 ∧ opcode 0x05 = 0x5 ∧
      opcode 0x06 = 0x6 ∧ opcode 0x07 = 0x7 ∧ opcode 0x08 = 0x8 ∧ formatBits 0x08 = 0 ∧ formatBits 0x12 ≠ 0 := by decide
theorem witness_RdcntReturnsTheCounter :
    State.reset.BlankWhenUnconfigured ∧ State.reset.fps = 0 ∧ (at_ 31 false 1).fps.toNat > 30 := by decide
theorem witness_RdubReturnsTheUserBits : (1 : Word16) ≠ 0 ∧ (65535 : Word16) ≠ 0 := by decide
theorem witness_IncrAdvancesTheCounter :
    (at_ 1 false 0xFFFFFFFF).fps ≠ 0 ∧ (at_ 1 false 0xFFFFFFFF).counter = 0xFFFFFFFF ∧ State.reset.fps = 0 ∧
      (at_ 30 true 1799).fps = 30 ∧ (at_ 30 true 1799).drop = true ∧ (at_ 30 true 1799).counter = 1799 ∧
      exec .incr (at_ 30 true 1799) = .next (after (exec .incr (at_ 30 true 1799))) :=
  ⟨by decide, by decide, by decide, by decide, by decide, by decide, rfl⟩
theorem witness_LoadConstructsATimecode :
    (1 : Word16) ≠ 0 ∧ (31 : Word16) ≠ 0 ∧ opcode 0x31 = 0x1 ∧ (0x31 : CmdWord).extractLsb' 6 2 = 0 ∧
      opcode 0x41 = 0x1 ∧ (0x41 : CmdWord).extractLsb' 6 2 ≠ 0 := by decide
theorem witness_DecodeReturnsTheFields :
    (at_ 65535 true 0xFFFFFFFF).fps ≠ 0 ∧ State.reset.fps = 0 ∧ (at_ 31 true 0).fps.toNat > 30 ∧
      (at_ 31 true 0).counter.getLsbD 0 = false ∧ (at_ 30 true 1800).fps = 30 ∧ (at_ 30 true 1800).drop = true ∧
      (at_ 30 true 1800).counter = 1800 := by decide
theorem witness_TobcdReturnsTheBcdWord :
    (at_ 1 true 0).fps ≠ 0 ∧ State.reset.fps = 0 ∧ (at_ 31 true 2).fps.toNat > 30 ∧
      (at_ 31 true 2).counter.getLsbD 0 = false ∧ (at_ 30 true 1099073).fps = 30 ∧ (at_ 30 true 1099073).drop = true ∧
      (at_ 30 true 1099073).counter = 1099073 := by decide
theorem witness_RdflagsReturnsTheFlags : (at_ 30 true 1).fps ≠ 0 ∧ State.reset.fps = 0 ∧ opcode 0x05 = 0x5 := by decide
theorem witness_RdrateReturnsTheConstant :
    (at_ 65535 true 0).fps ≠ 0 ∧ (5 : BitVec 3).toNat ≤ 5 ∧ (0 : BitVec 3).toNat ≤ 5 ∧ State.reset.fps = 0 ∧
      opcode 0x59 = 0x9 ∧ opcode 0x89 = 0x9 ∧ (at_ 65535 true 0).fps = 65535 ∧ (at_ 30 true 0).fps = 30 := by decide
theorem witness_TruncationMayComeAtAnyPoint : ValidLabel 49711 false 59 59 24854 ∧ (23 : Nat) < 24 := by decide
theorem witness_FieldPairIsBitZero : (31 : Nat) > 30 ∧ (30 : Nat) ≤ 30 := by decide
theorem witness_MissingLabelAliasesAnEarlierFrame :
    MissingLabel 1 true 1 1 0 ∧ MissingLabel 30 true 59 0 1 ∧ 2 ≤ (rateConsts 2).sf ∧ MissingLabel 2 true 1 0 1 ∧
      exactCount 30 true 0 59 0 1 false < 2 ^ 32 := by decide
theorem witness_DecodedFieldsAreInRange : (1 : Nat) ≤ 1 ∧ (1 : Nat) ≤ 65535 ∧ (65535 : Nat) ≤ 65535 := by decide
theorem witness_ValidLabelRoundTrip :
    ValidLabel 30 true 1 0 2 ∧ exactCount 30 true 0 1 0 2 false < 2 ^ 32 ∧ ValidLabel 1 true 59 2 0 ∧
      ValidLabel 49711 false 59 59 24854 ∧ exactCount 49711 false 23 59 59 24854 true < 2 ^ 32 := by decide
theorem witness_CountRoundTrip : countToFields 60 true 3600 = countToFields 60 true 3601 := by decide
theorem witness_HoursNeverWrap :
    countToBase 30 2589408 = 24 * (rateConsts 30).dfph ∧ countToBase 60 5184000 = 24 * (rateConsts 60).fph := by decide
theorem witness_BcdWordPlacesTheDigits : (159 : Nat) ≤ 159 ∧ 160 ≤ (160 : Nat) := by decide
theorem witness_SourceBcdExamplesHold :
    14 ≤ scaledFps (14 : Word16).toNat ∧ 14 ≤ scaledFps (31 : Word16).toNat ∧ 14 ≤ scaledFps (65535 : Word16).toNat := by
  decide
theorem witness_FieldMarkAlternates : (at_ 31 false 0xFFFFFFFF).fps.toNat > 30 ∧ (at_ 65535 false 0).fps.toNat > 30 := by
  decide
theorem witness_IncrementsEqualOneLoad :
    (at_ 30 true 17980).fps ≠ 0 ∧ (at_ 30 true 17980).counter.toNat + 4 < 2 ^ 32 ∧
      fieldsToCount 30 true 0 10 0 2 false = BitVec.ofNat 32 ((at_ 30 true 17980).counter.toNat + 4) := by decide
theorem witness_IncrementShowsTheFollowingLabel :
    (at_ 3 true 179).fps ≠ 0 ∧ 3 ≤ (rateConsts (at_ 3 true 179).fps.toNat).sf ∧ (at_ 3 true 179).counter ≠ 0xFFFFFFFF := by
  decide
theorem witness_DecodeThenLoadRestoresTheCounter : (at_ 65535 true 0xFFFFFFFF).fps ≠ 0 := by decide
theorem witness_UserBitsBelongAfterLoad :
    (25 : Word16) ≠ 0 ∧ ∀ i ∈ [Instr.incr, .decode], (∀ v, i ≠ .wrub v) ∧ ∀ a b c d e g k, i ≠ .load a b c d e g k := by
  refine ⟨by decide, fun i hi => ?_⟩
  simp only [List.mem_cons, List.not_mem_nil, or_false] at hi
  rcases hi with rfl | rfl <;> exact ⟨fun _ h => (by cases h), fun _ _ _ _ _ _ _ h => (by cases h)⟩

end Sys2Proof.Tests
end

section
/-! PROOFS of family 00_scope: the port's registers beside a command, and the flight of a command over the clock edges
(10_state.md R35, 70_reset_and_hazards.md R155). -/

namespace Sys2Proof.Machine

/-! ### No command sees the port -/

/-- The registers of the handshake and the host's list replaced: all that stands in `State` beside the registers of
10_state.md R20. -/
def State.withPort (ready valid : Bool) (flight : Option Flight) (host : List HostEvent) (s : State) : State :=
  { s with cmdReady := ready, rspValid := valid, inFlight := flight, host := host }

theorem State.withPort_self (s : State) : s.withPort s.cmdReady s.rspValid s.inFlight s.host = s := rfl

theorem State.accept_eq_withPort (r : Request) (n : Nat) (s : State) :
    s.accept r n = s.withPort false false (some ⟨r, n⟩) s.host := rfl

theorem State.respond_withPort (ready valid : Bool) (flight : Option Flight) (host : List HostEvent) (s : State) :
    (s.withPort ready valid flight host).respond = s.withPort true true none host := rfl

theorem mapNext_mapNext (f g : State → State) (o : Host.Outcome State Fault Refusal) :
    mapNext g (mapNext f o) = mapNext (fun s => g (f s)) o := by
  cases o <;> rfl

section Port
variable (ready valid : Bool) (flight : Option Flight) (host : List HostEvent)

theorem guardRate_withPort (s : State) {t u : State} (hu : u = t.withPort ready valid flight host) :
    guardRate (s.withPort ready valid flight host) u =
      mapNext (State.withPort ready valid flight host) (guardRate s t) := by
  subst hu
  by_cases h : s.fps = 0
  · rw [guardRate_unconfigured h, guardRate_unconfigured (s := s.withPort ready valid flight host) h]
    rfl
  · rw [guardRate_configured h, guardRate_configured (s := s.withPort ready valid flight host) h]
    rfl

/-- A command neither reads nor writes the handshake or the host's list. -/
theorem exec_withPort (i : Instr) (s : State) :
    exec i (s.withPort ready valid flight host) = mapNext (State.withPort ready valid flight host) (exec i s) := by
  cases i with
  | nop => rfl
  | rdub => rfl
  | wrub ubIn => rfl
  | rdcnt => rfl
  | incr => exact guardRate_withPort ready valid flight host s rfl
  | decode => exact guardRate_withPort ready valid flight host s rfl
  | tobcd => exact guardRate_withPort ready valid flight host s rfl
  | rdflags => exact guardRate_withPort ready valid flight host s rfl
  | load df fp fpsIn hIn mIn sIn fIn =>
    show execLoad _ _ _ _ _ _ _ _ = mapNext _ (execLoad _ _ _ _ _ _ _ s)
    unfold execLoad
    split <;> rfl
  | rdrate sel =>
    show execRdrate _ _ = mapNext _ (execRdrate _ s)
    unfold execRdrate
    split
    · exact guardRate_withPort ready valid flight host s rfl
    · rfl

theorem perform_withPort (r : Request) (s : State) :
    perform r (s.withPort ready valid flight host) = mapNext (State.withPort ready valid flight host) (perform r s) := by
  cases hd : decodeRequest r with
  | ok i => rw [perform_legal _ hd, perform_legal _ hd, exec_withPort]
  | error e =>
    rw [perform_illegal _ hd, perform_illegal _ hd]
    rfl

/-- What a completion leaves on the port does not depend on what stood there, but for the host's list. -/
theorem complete_withPort (r : Request) (s : State) :
    complete r (s.withPort ready valid flight host) = mapNext (State.withPort true true none host) (perform r s) := by
  unfold complete
  rw [perform_withPort, mapNext_mapNext]
  simp only [State.respond_withPort]

end Port

theorem complete_accept (r q : Request) (n : Nat) (s : State) : complete r (s.accept q n) = complete r s := by
  calc complete r (s.accept q n)
      = mapNext (State.withPort true true none s.host) (perform r s) := by
        rw [State.accept_eq_withPort, complete_withPort]
    _ = complete r s := by
        conv_rhs => rw [← State.withPort_self s, complete_withPort]

/-! ### The edges of a flight -/

theorem clockEdge_accepts {p : PortsIn} {s : State} (hidle : s.inFlight = none) (hready : s.cmdReady = true)
    (hrst : p.rst = false) (hvalid : p.cmdValid = true) :
    clockEdge p s = .next (s.accept p.request (latency p.request.cmd)) := by
  simp [clockEdge, hidle, hready, hrst, hvalid]

theorem clockEdge_completes {p : PortsIn} (r : Request) (s : State) (hrst : p.rst = false) :
    clockEdge p (s.accept r 1) = complete r (s.accept r 1) := by
  simp [clockEdge, hrst]

theorem clockEdge_waits {p : PortsIn} (r : Request) (n : Nat) (s : State) (hrst : p.rst = false) :
    clockEdge p (s.accept r (n + 2)) = .next (s.accept r (n + 1)) := by
  simp [clockEdge, hrst, State.accept, State.wait]

theorem clockEdges_singleton (p : PortsIn) (s : State) : clockEdges [p] s = clockEdge p s := by
  unfold clockEdges
  cases clockEdge p s <;> rfl

/-- As many edges as the flight still has, none with `rst`, complete its command, whatever else the inputs show. -/
theorem clockEdges_flight (r : Request) (s : State) :
    ∀ (n : Nat) (ps : List PortsIn), ps.length = n + 1 → (∀ q ∈ ps, q.rst = false) →
      clockEdges ps (s.accept r (n + 1)) = complete r s
  | _, [], hlen, _ => by simp at hlen
  | 0, [p], _, hrst => by
    rw [clockEdges_singleton, clockEdge_completes r s (hrst p (by simp)), complete_accept]
  | 0, _ :: _ :: _, hlen, _ => by simp at hlen
  | n + 1, p :: ps, hlen, hrst => by
    obtain ⟨hp, hps⟩ := List.forall_mem_cons.mp hrst
    rw [clockEdges_cons ps (clockEdge_waits r n s hp)]
    exact clockEdges_flight r s n ps (by simpa using hlen) hps

/-- The step that takes a command from the head of the host's list. -/
theorem step_command {s : State} {r : Request} {rest : List HostEvent} (hhost : s.host = .command r :: rest)
    (hidle : s.inFlight = none) : step s = complete r (s.setHost rest) := by
  simp only [step, hostStep, hhost, hidle]

/-- Settles O20: the accepting edge starts a flight of LATENCY edges, the flight ends in the completion of the command, and
that is what the step does. -/
theorem edgesUntilCompletionAreOneStep : Obligations.EdgesUntilCompletionAreOneStep := by
  intro s p ps hidle hready hrst hvalid hquiet hlen
  obtain ⟨n, hn⟩ := Nat.exists_eq_succ_of_ne_zero (Nat.ne_of_gt (latency_pos p.request.cmd))
  have haccept : clockEdge p s = .next (s.accept p.request (n + 1)) := by
    rw [clockEdge_accepts hidle hready hrst hvalid, hn]
  calc clockEdges (p :: ps) s
      = clockEdges ps (s.accept p.request (n + 1)) := clockEdges_cons ps haccept
    _ = complete p.request s := clockEdges_flight p.request s n ps (hlen.trans hn) hquiet
    _ = step { s with host := .command p.request :: s.host } :=
      (step_command (s := { s with host := .command p.request :: s.host }) rfl hidle).symm

end Sys2Proof.Machine
end

section
/-! PROOFS of family 00_scope: counting by minutes. A minute of the label `h:m` shows a run of consecutive bases, in
drop-frame without its first two frames (42_decode.md R91 to R93), and the next minute takes over where it ends
(00_scope.md R12). -/

namespace Sys2Proof.Machine

/-! ### The rate constants over one another -/

theorem rateConsts_fpm (fps : Nat) : (rateConsts fps).fpm = (rateConsts fps).sf * 60 := rfl

theorem rateConsts_fph (fps : Nat) : (rateConsts fps).fph = (rateConsts fps).fpm * 60 :=
  (Nat.mul_assoc (rateConsts fps).sf 60 60).symm

theorem rateConsts_dfp10 (fps : Nat) : (rateConsts fps).dfp10 = (rateConsts fps).dfpm * 9 + (rateConsts fps).fpm := rfl

theorem rateConsts_dfph (fps : Nat) : (rateConsts fps).dfph = (rateConsts fps).dfp10 * 6 := rfl

/-- A short minute is a full one without two frames. -/
theorem rateConsts_dfpm_add_two {fps : Nat} (hsf : 1 ≤ (rateConsts fps).sf) :
    (rateConsts fps).dfpm + 2 = (rateConsts fps).fpm := by
  show (rateConsts fps).sf * 60 - 2 + 2 = (rateConsts fps).sf * 60
  omega

/-! ### Minutes as runs of bases -/

/-- The label a base decodes to: steps 2 and 3 of 42_decode.md R91 to R93. -/
def baseToLabel (fps : Nat) (df : Bool) (base : Nat) : Fields :=
  if df then baseToDropFields fps base else baseToFields fps base

theorem countToFields_eq_baseToLabel (fps : Nat) (df : Bool) (cnt : Nat) :
    countToFields fps df cnt = baseToLabel fps df (countToBase fps cnt) := rfl

/-- Where the minute `h:m` would start if it had no missing frames: the part of 41_load_encode.md R81 that reads hours and
minutes. -/
def minuteBase (fps : Nat) (df : Bool) (h m : Nat) : Nat :=
  if df then h * (rateConsts fps).dfph + m / 10 * (rateConsts fps).dfp10 + m % 10 * (rateConsts fps).dfpm
  else h * (rateConsts fps).fph + m * (rateConsts fps).fpm

theorem fieldsToBase_eq_minuteBase (fps : Nat) (df : Bool) (h m s f : Nat) :
    fieldsToBase fps df h m s f = minuteBase fps df h m + (s * (rateConsts fps).sf + f) := rfl

/-- The first frame of a minute: "skips frame numbers 0 and 1 at the start of every minute except multiples of 10"
(00_scope.md R12). -/
def firstFrame (df : Bool) (m : Nat) : Nat := if df ∧ m % 10 ≠ 0 then 2 else 0

theorem firstFrame_tenth {m : Nat} (df : Bool) (h : m % 10 = 0) : firstFrame df m = 0 := by simp [firstFrame, h]

theorem firstFrame_drop {m : Nat} (h : m % 10 ≠ 0) : firstFrame true m = 2 := by simp [firstFrame, h]

theorem firstFrame_le_two (df : Bool) (m : Nat) : firstFrame df m ≤ 2 := by
  unfold firstFrame
  split <;> omega

/-- The two branches of a short minute are one formula: the test on exact integers only spares a division
(42_decode.md R95). -/
theorem shortMinuteFields_eq (sf h m r : Nat) : shortMinuteFields sf h m r = ⟨h, m, (r + 2) / sf, (r + 2) % sf⟩ := by
  unfold shortMinuteFields
  split
  · next hr => rw [Nat.div_eq_of_lt hr, Nat.mod_eq_of_lt hr]
  · rfl

theorem mul_add_div_of_lt {k r : Nat} (q : Nat) (hr : r < k) : (q * k + r) / k = q := by
  rw [Nat.mul_comm, Nat.mul_add_div (by omega), Nat.div_eq_of_lt hr, Nat.add_zero]

/-- The non-drop-frame path, minute by minute. -/
theorem baseToFields_minute (fps h : Nat) {m x : Nat} (hm : m < 60) (hx : x < (rateConsts fps).fpm) :
    baseToFields fps (h * (rateConsts fps).fph + m * (rateConsts fps).fpm + x) =
      ⟨h, m, x / (rateConsts fps).sf, x % (rateConsts fps).sf⟩ := by
  rw [rateConsts_fpm] at hx
  have hsf : 0 < (rateConsts fps).sf := by omega
  have hsec : x / (rateConsts fps).sf < 60 := Nat.div_lt_of_lt_mul hx
  have hbase : h * (rateConsts fps).fph + m * (rateConsts fps).fpm + x =
      (rateConsts fps).sf * (h * 3600 + m * 60) + x := by
    rw [rateConsts_fph, rateConsts_fpm]
    ring
  rw [hbase, baseToFields, Nat.mul_add_div hsf, Nat.mul_add_mod, Fields.mk.injEq]
  generalize x / (rateConsts fps).sf = sec at *
  omega

/-- The drop-frame path, decade by decade. -/
theorem baseToDropFields_decade (fps h : Nat) {major r : Nat} (hmajor : major < 6) (hr : r < (rateConsts fps).dfp10) :
    baseToDropFields fps (h * (rateConsts fps).dfph + (major * (rateConsts fps).dfp10 + r)) =
      decadeFields fps h major r := by
  have hhour : major * (rateConsts fps).dfp10 + r < (rateConsts fps).dfph := by
    have hdecades : (major + 1) * (rateConsts fps).dfp10 ≤ 6 * (rateConsts fps).dfp10 := Nat.mul_le_mul_right _ hmajor
    rw [Nat.succ_mul] at hdecades
    rw [rateConsts_dfph]
    omega
  rw [baseToDropFields, mul_add_div_of_lt h hhour, Nat.mul_add_mod_of_lt hhour, mul_add_div_of_lt major hr,
    Nat.mul_add_mod_of_lt hr]

theorem decadeFields_first (fps h major : Nat) {x : Nat} (hx : x < (rateConsts fps).fpm) :
    decadeFields fps h major x = ⟨h, major * 10, x / (rateConsts fps).sf, x % (rateConsts fps).sf⟩ :=
  if_pos hx

/-- The `j`-th short minute of a decade shows its frames from the third on. -/
theorem decadeFields_short (fps h major j : Nat) {y : Nat} (hy : y < (rateConsts fps).dfpm) :
    decadeFields fps h major ((rateConsts fps).fpm + (j * (rateConsts fps).dfpm + y)) =
      ⟨h, major * 10 + j + 1, (y + 2) / (rateConsts fps).sf, (y + 2) % (rateConsts fps).sf⟩ := by
  rw [decadeFields, if_neg (by omega), Nat.add_sub_cancel_left, mul_add_div_of_lt j hy, Nat.mul_add_mod_of_lt hy,
    shortMinuteFields_eq]

/-- The drop-frame path, minute by minute. -/
theorem baseToDropFields_minute {fps : Nat} (hsf : 1 ≤ (rateConsts fps).sf) (h : Nat) {m x : Nat} (hm : m < 60)
    (hfirst : firstFrame true m ≤ x) (hx : x < (rateConsts fps).fpm) :
    baseToDropFields fps
        (h * (rateConsts fps).dfph + m / 10 * (rateConsts fps).dfp10 + m % 10 * (rateConsts fps).dfpm + x) =
      ⟨h, m, x / (rateConsts fps).sf, x % (rateConsts fps).sf⟩ := by
  have htwo := rateConsts_dfpm_add_two hsf
  have hr : m % 10 * (rateConsts fps).dfpm + x < (rateConsts fps).dfp10 := by
    have : m % 10 * (rateConsts fps).dfpm ≤ 9 * (rateConsts fps).dfpm := Nat.mul_le_mul_right _ (by omega)
    rw [rateConsts_dfp10]
    omega
  rw [Nat.add_assoc, Nat.add_assoc, baseToDropFields_decade fps h (by omega) hr]
  by_cases hten : m % 10 = 0
  · rw [hten, Nat.zero_mul, Nat.zero_add, decadeFields_first fps h _ hx, Fields.mk.injEq]
    omega
  · obtain ⟨j, hj⟩ := Nat.exists_eq_succ_of_ne_zero hten
    rw [firstFrame_drop hten] at hfirst
    obtain ⟨y, rfl⟩ := Nat.exists_eq_add_of_le' hfirst
    have hshort : m % 10 * (rateConsts fps).dfpm + (y + 2) =
        (rateConsts fps).fpm + (j * (rateConsts fps).dfpm + y) := by
      rw [hj, Nat.succ_mul]
      omega
    rw [hshort, decadeFields_short fps h _ j (by omega), Fields.mk.injEq]
    omega

/-- A base inside the minute `h:m` decodes to that minute and its place in it. -/
theorem baseToLabel_minute {fps : Nat} (hsf : 1 ≤ (rateConsts fps).sf) (df : Bool) (h : Nat) {m x : Nat} (hm : m < 60)
    (hfirst : firstFrame df m ≤ x) (hx : x < (rateConsts fps).fpm) :
    baseToLabel fps df (minuteBase fps df h m + x) = ⟨h, m, x / (rateConsts fps).sf, x % (rateConsts fps).sf⟩ := by
  cases df with
  | false => exact baseToFields_minute fps h hm hx
  | true => exact baseToDropFields_minute hsf h hm hfirst hx

theorem exists_nonDropMinute {fps : Nat} (hfpm : 0 < (rateConsts fps).fpm) (base : Nat) :
    ∃ h m x, m < 60 ∧ x < (rateConsts fps).fpm ∧
      base = h * (rateConsts fps).fph + m * (rateConsts fps).fpm + x := by
  refine ⟨base / (rateConsts fps).fpm / 60, base / (rateConsts fps).fpm % 60, base % (rateConsts fps).fpm,
    Nat.mod_lt _ (by decide), Nat.mod_lt _ hfpm, ?_⟩
  calc base
      = base / (rateConsts fps).fpm * (rateConsts fps).fpm + base % (rateConsts fps).fpm :=
        (Nat.div_add_mod' _ _).symm
    _ = (base / (rateConsts fps).fpm / 60 * 60 + base / (rateConsts fps).fpm % 60) * (rateConsts fps).fpm +
          base % (rateConsts fps).fpm := by rw [Nat.div_add_mod' _ 60]
    _ = _ := by
      rw [rateConsts_fph]
      ring

theorem exists_decade {fps : Nat} (hdfp10 : 0 < (rateConsts fps).dfp10) (base : Nat) :
    ∃ h major r, major < 6 ∧ r < (rateConsts fps).dfp10 ∧
      base = h * (rateConsts fps).dfph + (major * (rateConsts fps).dfp10 + r) := by
  have hdfph : 0 < (rateConsts fps).dfph := by
    rw [rateConsts_dfph]
    omega
  refine ⟨base / (rateConsts fps).dfph, base % (rateConsts fps).dfph / (rateConsts fps).dfp10,
    base % (rateConsts fps).dfph % (rateConsts fps).dfp10, ?_, Nat.mod_lt _ hdfp10, ?_⟩
  · exact Nat.div_lt_of_lt_mul (Nat.mod_lt base hdfph)
  · rw [Nat.div_add_mod', Nat.div_add_mod']

theorem exists_dropMinute {fps : Nat} (hsf : 1 ≤ (rateConsts fps).sf) (base : Nat) :
    ∃ h m x, m < 60 ∧ firstFrame true m ≤ x ∧ x < (rateConsts fps).fpm ∧
      base = h * (rateConsts fps).dfph + m / 10 * (rateConsts fps).dfp10 + m % 10 * (rateConsts fps).dfpm + x := by
  have htwo := rateConsts_dfpm_add_two hsf
  have hfpm := rateConsts_fpm fps
  have hdfp10 := rateConsts_dfp10 fps
  obtain ⟨h, major, r, hmajor, hr, rfl⟩ := exists_decade (fps := fps) (by omega) base
  by_cases hfull : r < (rateConsts fps).fpm
  · refine ⟨h, major * 10, r, by omega, (firstFrame_tenth true (by omega)).trans_le (Nat.zero_le r), hfull, ?_⟩
    rw [Nat.mul_div_cancel major (by decide), Nat.mul_mod_left]
    ring
  · obtain ⟨y, rfl⟩ := Nat.exists_eq_add_of_le (Nat.not_lt.mp hfull)
    have hj : y / (rateConsts fps).dfpm < 9 := Nat.div_lt_of_lt_mul (by omega)
    have hy : y % (rateConsts fps).dfpm < (rateConsts fps).dfpm := Nat.mod_lt _ (by omega)
    have hsplit := Nat.div_add_mod' y (rateConsts fps).dfpm
    generalize y / (rateConsts fps).dfpm = j at hj hsplit
    have hten : (major * 10 + (j + 1)) % 10 = j + 1 := by omega
    refine ⟨h, major * 10 + (j + 1), y % (rateConsts fps).dfpm + 2, by omega, ?_, by omega, ?_⟩
    · rw [firstFrame_drop (by omega)]
      omega
    · rw [hten, show (major * 10 + (j + 1)) / 10 = major by omega, Nat.succ_mul]
      omega

/-- Every base lies inside a minute. -/
theorem exists_minute {fps : Nat} (hsf : 1 ≤ (rateConsts fps).sf) (df : Bool) (base : Nat) :
    ∃ h m x, m < 60 ∧ firstFrame df m ≤ x ∧ x < (rateConsts fps).fpm ∧ base = minuteBase fps df h m + x := by
  cases df with
  | false =>
    have hfpm : 0 < (rateConsts fps).fpm := Nat.mul_pos hsf (by decide)
    obtain ⟨h, m, x, hm, hx, hbase⟩ := exists_nonDropMinute hfpm base
    exact ⟨h, m, x, hm, Nat.zero_le x, hx, hbase⟩
  | true => exact exists_dropMinute hsf base

/-! ### The minute after a minute -/

/-- A minute ends where the next one shows its first frame. -/
theorem minuteBase_next {fps : Nat} (hsf : 1 ≤ (rateConsts fps).sf) (df : Bool) (h m : Nat) :
    minuteBase fps df h m + (rateConsts fps).fpm = minuteBase fps df h (m + 1) + firstFrame df (m + 1) := by
  have htwo := rateConsts_dfpm_add_two hsf
  cases df with
  | false =>
    show _ = minuteBase fps false h (m + 1) + 0
    simp only [minuteBase, Bool.false_eq_true, if_false]
    ring
  | true =>
    simp only [minuteBase, if_true]
    by_cases hten : (m + 1) % 10 = 0
    · rw [firstFrame_tenth true hten, hten, show m % 10 = 9 by omega, show (m + 1) / 10 = m / 10 + 1 by omega,
        Nat.succ_mul, rateConsts_dfp10]
      ring
    · rw [firstFrame_drop hten, show (m + 1) % 10 = m % 10 + 1 by omega, show (m + 1) / 10 = m / 10 by omega,
        Nat.succ_mul]
      omega

/-- After 60 minutes the next hour starts. -/
theorem minuteBase_sixty (fps : Nat) (df : Bool) (h : Nat) : minuteBase fps df h 60 = minuteBase fps df (h + 1) 0 := by
  cases df with
  | false =>
    simp only [minuteBase, Bool.false_eq_true, if_false, rateConsts_fph]
    ring
  | true =>
    simp only [minuteBase, if_true, rateConsts_dfph]
    ring

/-! ### One frame later -/

theorem Fields.following_frame {sf : Nat} (df : Bool) {t : Fields} (hf : t.f + 1 < sf) :
    t.following sf df = { t with f := t.f + 1 } :=
  if_pos hf

theorem Fields.following_second {sf : Nat} (df : Bool) {t : Fields} (hf : ¬ t.f + 1 < sf) (hs : t.s < 59) :
    t.following sf df = { t with s := t.s + 1, f := 0 } :=
  (if_neg hf).trans (if_pos hs)

theorem Fields.following_minute {sf : Nat} (df : Bool) {t : Fields} (hf : ¬ t.f + 1 < sf) (hs : ¬ t.s < 59) :
    t.following sf df =
      if t.m < 59 then ⟨t.h, t.m + 1, 0, firstFrame df (t.m + 1)⟩ else ⟨t.h + 1, 0, 0, 0⟩ :=
  (if_neg hf).trans (if_neg hs)

/-- The following label of a place inside a minute that is not its last. -/
theorem Fields.following_inside {sf : Nat} (df : Bool) (h m : Nat) {x : Nat} (hx : x + 1 < sf * 60) :
    Fields.following sf df ⟨h, m, x / sf, x % sf⟩ = ⟨h, m, (x + 1) / sf, (x + 1) % sf⟩ := by
  have hsf : 0 < sf := by omega
  have hsplit := Nat.div_add_mod' x sf
  have hmod := Nat.mod_lt x hsf
  by_cases hf : x % sf + 1 < sf
  · rw [following_frame df hf, ← hsplit, Nat.add_assoc, mul_add_div_of_lt _ hf, Nat.mul_add_mod_of_lt hf, hsplit]
  · have hnext : x + 1 = (x / sf + 1) * sf := by
      rw [Nat.succ_mul]
      omega
    have hs : x / sf < 59 := by
      have : x / sf + 1 < 60 := Nat.lt_of_mul_lt_mul_left (a := sf) (by rwa [Nat.mul_comm, ← hnext])
      omega
    rw [following_second df hf hs, hnext, Nat.mul_div_cancel _ hsf, Nat.mul_mod_left]

/-- The following label of the last place of a minute. -/
theorem Fields.following_last {sf : Nat} (df : Bool) (h m : Nat) {x : Nat} (hx : x + 1 = sf * 60) :
    Fields.following sf df ⟨h, m, x / sf, x % sf⟩ =
      if m < 59 then ⟨h, m + 1, 0, firstFrame df (m + 1)⟩ else ⟨h + 1, 0, 0, 0⟩ := by
  have hlast : sf - 1 < sf := by omega
  obtain rfl : x = 59 * sf + (sf - 1) := by omega
  rw [mul_add_div_of_lt 59 hlast, Nat.mul_add_mod_of_lt hlast]
  exact following_minute df (by dsimp only; omega) (Nat.lt_irrefl 59)

/-- The next base shows the following label. -/
theorem baseToLabel_succ {fps : Nat} (hsf : 3 ≤ (rateConsts fps).sf) (df : Bool) (base : Nat) :
    baseToLabel fps df (base + 1) = (baseToLabel fps df base).following (rateConsts fps).sf df := by
  have hone : 1 ≤ (rateConsts fps).sf := by omega
  have hfpm := rateConsts_fpm fps
  obtain ⟨h, m, x, hm, hfirst, hx, rfl⟩ := exists_minute hone df base
  rw [baseToLabel_minute hone df h hm hfirst hx, Nat.add_assoc]
  by_cases hinside : x + 1 < (rateConsts fps).fpm
  · rw [baseToLabel_minute hone df h hm (by omega) hinside, Fields.following_inside df h m (hfpm ▸ hinside)]
  · have hlast : x + 1 = (rateConsts fps).fpm := by omega
    rw [Fields.following_last df h m (hlast.trans hfpm), hlast, minuteBase_next hone]
    by_cases hhour : m < 59
    · have hframe : firstFrame df (m + 1) < (rateConsts fps).sf := (firstFrame_le_two df _).trans_lt hsf
      rw [baseToLabel_minute hone df h (by omega) le_rfl (by omega), if_pos hhour, Nat.div_eq_of_lt hframe,
        Nat.mod_eq_of_lt hframe]
    · obtain rfl : m = 59 := by omega
      rw [if_neg hhour, minuteBase_sixty, firstFrame_tenth df (m := 60) rfl,
        baseToLabel_minute hone df (h + 1) (by decide) (firstFrame_tenth df rfl).le (by omega), Nat.zero_div,
        Nat.zero_mod]

/-! ### INCR -/

/-- INCR on a configured core: the next state, with the counter one further. -/
theorem exec_incr_configured {s : State} (hfps : s.fps ≠ 0) :
    exec .incr s = .next ((s.setCounter (trunc32 (s.counter.toNat + 1))).finish .ok .zero) :=
  guardRate_configured hfps

theorem trunc32_toNat {v : Nat} (hv : v < 2 ^ 32) : (trunc32 v).toNat = v := Nat.mod_eq_of_lt hv

/-- The field mark in numbers: the second field of a frame has an odd count (10_state.md R28). -/
theorem State.fieldMark_eq (s : State) :
    s.fieldMark = (decide (s.fps.toNat > 30) && decide (s.counter.toNat % 2 = 1)) := by
  rw [State.fieldMark, fieldMarkOf, BitVec.getLsbD, Nat.testBit_zero]

theorem State.firstField_iff (s : State) :
    (s.fps.toNat > 30 ∧ s.fieldMark = false) ↔ (s.fps.toNat > 30 ∧ s.counter.toNat % 2 = 0) := by
  refine and_congr_right fun hfps => ?_
  rw [s.fieldMark_eq, decide_eq_true hfps, Bool.true_and, decide_eq_false_iff_not]
  omega

/-- The base of the next count: the same one in the second field of a frame, else the next. -/
theorem countToBase_succ (fps cnt : Nat) :
    countToBase fps (cnt + 1) =
      if fps > 30 ∧ cnt % 2 = 0 then countToBase fps cnt else countToBase fps cnt + 1 := by
  unfold countToBase
  split_ifs <;> omega

/-- Settles O58: INCR moves the base by one, or by none in the first field of a frame, and the next base shows the following
label. -/
theorem incrementShowsTheFollowingLabel : Obligations.IncrementShowsTheFollowingLabel := by
  intro s hfps hsf hmax
  have hcount : s.counter.toNat + 1 < 2 ^ 32 := by
    have : s.counter.toNat ≠ 0xFFFFFFFF := fun h => hmax (BitVec.eq_of_toNat_eq h)
    omega
  refine ⟨_, exec_incr_configured hfps, ?_⟩
  calc countToFields s.fps.toNat s.drop (trunc32 (s.counter.toNat + 1)).toNat
      = baseToLabel s.fps.toNat s.drop (countToBase s.fps.toNat (s.counter.toNat + 1)) := by
        rw [trunc32_toNat hcount, countToFields_eq_baseToLabel]
    _ = if s.fps.toNat > 30 ∧ s.fieldMark = false then s.fields
        else s.fields.following (rateConsts s.fps.toNat).sf s.drop := by
        rw [countToBase_succ, apply_ite (baseToLabel s.fps.toNat s.drop), baseToLabel_succ hsf]
        simp only [s.firstField_iff]
        rfl

end Sys2Proof.Machine
end

section
/-! PROOFS of family 10_state: what a command can do to the registers, said once (10_state.md R20 to R26), and the
invariant, which rests on it. -/

namespace Sys2Proof.Machine

/-! ### The effect of a command -/

/-- What a command can do to the state it finds: fail and write nothing but RES and STATUS, only read, or succeed as one of
the three commands that write another register (10_state.md R21 to R24, 60_exceptions.md R132). -/
inductive CommandEffect : Instr → State → State → Prop
  | fails (i : Instr) (s : State) {code : Status} (hrate : code = .unconfig → s.fps = 0) :
      CommandEffect i s (s.finish code .zero)
  | reads (i : Instr) (s : State) (r : Results) : CommandEffect i s (s.finish .ok r)
  | loads (df fp : Bool) {fps : Word16} (h m sec f : Word32) (s : State) (hfps : fps ≠ 0) :
      CommandEffect (.load df fp fps h m sec f) s
        ((s.construct fps df (fieldsToCount fps.toNat df h.toNat m.toNat sec.toNat f.toNat fp)).finish .ok .zero)
  | counts {s : State} (hfps : s.fps ≠ 0) :
      CommandEffect .incr s ((s.setCounter (trunc32 (s.counter.toNat + 1))).finish .ok .zero)
  | writesUserBits (ub : Word32) (s : State) : CommandEffect (.wrub ub) s ((s.setUserBits ub).finish .ok .zero)

/-- A command behind the rate check that only reads, while configured, and fails otherwise. -/
theorem guardRate_reads (i : Instr) (s : State) (r : Results) :
    ∃ t, guardRate s (done r s) = .next t ∧ CommandEffect i s t := by
  by_cases hfps : s.fps = 0
  · exact ⟨_, guardRate_unconfigured hfps, .fails i s fun _ => hfps⟩
  · exact ⟨_, guardRate_configured hfps, .reads i s r⟩

theorem execIncr_effect (s : State) : ∃ t, execIncr s = .next t ∧ CommandEffect .incr s t := by
  by_cases hfps : s.fps = 0
  · exact ⟨_, guardRate_unconfigured hfps, .fails .incr s fun _ => hfps⟩
  · exact ⟨_, guardRate_configured hfps, .counts hfps⟩

theorem execLoad_configures {fps : Word16} (hfps : fps ≠ 0) (df fp : Bool) (h m sec f : Word32) (s : State) :
    execLoad df fp fps h m sec f s = .next
      ((s.construct fps df (fieldsToCount fps.toNat df h.toNat m.toNat sec.toNat f.toNat fp)).finish .ok .zero) :=
  if_neg hfps

theorem execLoad_effect (df fp : Bool) (fps : Word16) (h m sec f : Word32) (s : State) :
    ∃ t, execLoad df fp fps h m sec f s = .next t ∧ CommandEffect (.load df fp fps h m sec f) s t := by
  by_cases hfps : fps = 0
  · exact ⟨_, if_pos hfps, .fails _ s nofun⟩
  · exact ⟨_, execLoad_configures hfps df fp h m sec f s, .loads df fp h m sec f s hfps⟩

theorem execRdrate_effect (sel : BitVec 3) (s : State) :
    ∃ t, execRdrate sel s = .next t ∧ CommandEffect (.rdrate sel) s t := by
  unfold execRdrate
  split
  · exact guardRate_reads _ s _
  · exact ⟨_, rfl, .fails _ s nofun⟩

/-- Every command answers a next state, and only in one of the five ways. -/
theorem exec_effect (i : Instr) (s : State) : ∃ t, exec i s = .next t ∧ CommandEffect i s t := by
  cases i with
  | nop => exact ⟨_, rfl, .reads .nop s .zero⟩
  | load df fp fps h m sec f => exact execLoad_effect df fp fps h m sec f s
  | incr => exact execIncr_effect s
  | decode => exact guardRate_reads .decode s _
  | tobcd => exact guardRate_reads .tobcd s _
  | rdflags => exact guardRate_reads .rdflags s _
  | rdub => exact ⟨_, rfl, .reads .rdub s _⟩
  | wrub ub => exact ⟨_, rfl, .writesUserBits ub s⟩
  | rdcnt => exact ⟨_, rfl, .reads .rdcnt s _⟩
  | rdrate sel => exact execRdrate_effect sel s

/-- The command step has the effect of a command; an illegal word fails, as any command may. -/
theorem perform_effect (r : Request) (s : State) : ∃ t i, perform r s = .next t ∧ CommandEffect i s t := by
  cases hd : decodeRequest r with
  | ok i =>
    obtain ⟨t, ht, heffect⟩ := exec_effect i s
    exact ⟨t, i, (perform_legal s hd).trans ht, heffect⟩
  | error e => exact ⟨_, .nop, perform_illegal s hd, .fails .nop s nofun⟩

theorem complete_effect {r : Request} {s t : State} (h : complete r s = .next t) :
    ∃ u i, CommandEffect i s u ∧ t = u.respond := by
  obtain ⟨u, hu, rfl⟩ := complete_cases h
  obtain ⟨v, i, hv, heffect⟩ := perform_effect r s
  obtain rfl : v = u := Host.Outcome.next.inj (hv.symm.trans hu)
  exact ⟨v, i, heffect, rfl⟩

/-- Settles O28. -/
theorem registersAndTheirWriters : Obligations.RegistersAndTheirWriters := by
  intro i s
  obtain ⟨t, ht, heffect⟩ := exec_effect i s
  refine ⟨t, ht, ?_⟩
  cases heffect with
  | fails | reads | writesUserBits => exact ⟨rfl, rfl, rfl, rfl, .inl ⟨rfl, rfl⟩, .inl rfl⟩
  | counts hfps => exact ⟨rfl, rfl, rfl, rfl, .inl ⟨rfl, rfl⟩, .inr (.inl ⟨rfl, hfps⟩)⟩
  | loads df fp h m sec f _ hfps =>
    exact ⟨rfl, rfl, rfl, rfl, .inr ⟨df, fp, _, h, m, sec, f, rfl, hfps, rfl, rfl⟩,
      .inr (.inr ⟨df, fp, _, h, m, sec, f, rfl, hfps⟩)⟩

/-- Settles O27: every arm ends in a `finish`, which overwrites both, and no arm reads either. -/
theorem oldResultsAndStatusAreInvisible : Obligations.OldResultsAndStatusAreInvisible := by
  intro i s old code
  cases i <;> rfl

/-! ### The rate -/

/-- No command gives the rate up (10_state.md R21). -/
theorem CommandEffect.fps_ne_zero {i : Instr} {s t : State} (heffect : CommandEffect i s t) (hfps : s.fps ≠ 0) :
    t.fps ≠ 0 := by
  cases heffect with
  | fails | reads | counts | writesUserBits => exact hfps
  | loads _ _ _ _ _ _ _ hload => exact hload

theorem complete_fps_ne_zero {r : Request} {s t : State} (h : complete r s = .next t) (hfps : s.fps ≠ 0) :
    t.fps ≠ 0 := by
  obtain ⟨u, i, heffect, rfl⟩ := complete_effect h
  exact heffect.fps_ne_zero hfps

/-- Settles O16: a step other than a reset completes a command, which does not give the rate up, or idles. -/
theorem configuredUntilReset : Obligations.ConfiguredUntilReset := by
  intro s t hstep hfps
  obtain ⟨rest, hreset, -⟩ | ⟨flight, -, hdone⟩ | ⟨r, rest, -, -, hdone⟩ | ⟨-, -, rfl⟩ := step_cases hstep
  · exact .inr ⟨rest, hreset⟩
  · exact .inl (complete_fps_ne_zero hdone hfps)
  · exact .inl (complete_fps_ne_zero hdone hfps)
  · exact .inl hfps

/-! ### The invariant, register part and handshake part -/

/-- The part of the invariant that is about the registers of 10_state.md R20. -/
abbrev State.RegistersConsistent (s : State) : Prop :=
  s.BlankWhenUnconfigured ∧ s.FailureClearsResults ∧ s.UnconfigMeansNoRate

theorem State.inv_iff (s : State) : s.Inv ↔ s.RegistersConsistent ∧ s.HandshakeConsistent := by
  simp only [and_assoc]

/-- A command writes all of RES and STATUS, so of the state before it only the timecode matters. -/
theorem CommandEffect.registersConsistent {i : Instr} {s t : State} (heffect : CommandEffect i s t)
    (hblank : s.BlankWhenUnconfigured) : t.RegistersConsistent := by
  cases heffect with
  | fails _ _ hrate => exact ⟨hblank, fun _ => rfl, hrate⟩
  | reads | writesUserBits => exact ⟨hblank, fun herror => absurd rfl herror, nofun⟩
  | loads _ _ _ _ _ _ _ hfps => exact ⟨fun hzero => absurd hzero hfps, fun _ => rfl, nofun⟩
  | counts hfps => exact ⟨fun hzero => absurd hzero hfps, fun _ => rfl, nofun⟩

theorem State.resetRegisters_inv (s : State) : s.resetRegisters.Inv :=
  ⟨fun _ => ⟨rfl, rfl⟩, fun _ => rfl, nofun, rfl, rfl, nofun⟩

theorem State.respond_handshakeConsistent (s : State) : s.respond.HandshakeConsistent := ⟨rfl, rfl, nofun⟩

theorem State.idle_handshakeConsistent {s : State} (h : s.HandshakeConsistent) : s.idle.HandshakeConsistent := by
  obtain ⟨hready, hahead, -⟩ := h
  exact ⟨hready, hahead, fun _ => rfl⟩

theorem State.accept_handshakeConsistent (r : Request) {n : Nat} (hn : 1 ≤ n) (s : State) :
    (s.accept r n).HandshakeConsistent :=
  ⟨rfl, decide_eq_true hn, fun _ => rfl⟩

theorem State.wait_handshakeConsistent {s : State} {flight : Flight} (h : s.HandshakeConsistent)
    (hflight : s.inFlight = some flight) (r : Request) {n : Nat} (hn : 1 ≤ n) : (s.wait r n).HandshakeConsistent := by
  obtain ⟨hready, -, -⟩ := h
  rw [hflight] at hready
  exact ⟨hready, decide_eq_true hn, fun _ => rfl⟩

theorem State.Inv.idle {s : State} (h : s.Inv) : s.idle.Inv := by
  obtain ⟨hregs, hhand⟩ := s.inv_iff.mp h
  exact s.idle.inv_iff.mpr ⟨hregs, idle_handshakeConsistent hhand⟩

/-- A completed command leaves the invariant, whatever stood in RES, STATUS and the handshake before. -/
theorem complete_inv {r : Request} {s t : State} (h : complete r s = .next t) (hblank : s.BlankWhenUnconfigured) :
    t.Inv := by
  obtain ⟨u, i, heffect, rfl⟩ := complete_effect h
  exact u.respond.inv_iff.mpr ⟨heffect.registersConsistent hblank, u.respond_handshakeConsistent⟩

/-- Settles O13. -/
theorem invAtReset : Obligations.InvAtReset := State.reset.resetRegisters_inv

/-- Settles O14. -/
theorem stepKeepsInv : Obligations.StepKeepsInv := by
  intro s t hinv hstep
  have hblank : s.BlankWhenUnconfigured := hinv.1
  obtain ⟨rest, -, rfl⟩ | ⟨flight, -, hdone⟩ | ⟨r, rest, -, -, hdone⟩ | ⟨-, -, rfl⟩ := step_cases hstep
  · exact State.resetRegisters_inv _
  · exact complete_inv hdone hblank
  · exact complete_inv hdone hblank
  · exact hinv.idle

/-- Settles O15. -/
theorem clockEdgeKeepsInv : Obligations.ClockEdgeKeepsInv := by
  intro p s t hinv hedge
  obtain ⟨hregs, hhand⟩ := s.inv_iff.mp hinv
  obtain ⟨-, rfl⟩ | ⟨-, flight, hflight, ⟨-, hdone⟩ | ⟨hleft, rfl⟩⟩ | ⟨-, -, ⟨-, -, rfl⟩ | ⟨-, rfl⟩⟩ :=
    clockEdge_cases hedge
  · exact State.resetRegisters_inv s
  · exact complete_inv hdone hregs.1
  · exact (State.inv_iff _).mpr
      ⟨hregs, State.wait_handshakeConsistent hhand hflight flight.request (Nat.le_sub_one_of_lt hleft)⟩
  · exact (State.inv_iff _).mpr ⟨hregs, State.accept_handshakeConsistent p.request (latency_pos _) s⟩
  · exact hinv.idle

end Sys2Proof.Machine
end

section
/-! PROOFS of family 10_state: the clock edges of reset, of a flight and of a response (10_state.md R35,
70_reset_and_hazards.md R150, R155). -/

namespace Sys2Proof.Machine

theorem clockEdge_resets {p : PortsIn} (s : State) (hrst : p.rst = true) : clockEdge p s = .next s.resetRegisters :=
  if_pos hrst

theorem clockEdge_idles {p : PortsIn} {s : State} (hidle : s.inFlight = none) (hrst : p.rst = false)
    (hquiet : (p.cmdValid && s.cmdReady) = false) : clockEdge p s = .next s.idle := by
  simp [clockEdge, hidle, hrst, hquiet]

/-- Settles O17. -/
theorem resetEdgeSetsEveryRegister : Obligations.ResetEdgeSetsEveryRegister := by
  refine ⟨fun p s hrst => clockEdge_resets s hrst, rfl, rfl, fun p q s hrst hq hvalid => ?_⟩
  rw [clockEdges_cons [q] (clockEdge_resets s hrst), clockEdges_singleton]
  exact clockEdge_accepts rfl rfl hq hvalid

/-- Fewer edges than the flight still has, none with `rst`, only bring its completion nearer. -/
theorem clockEdges_wait (r : Request) (s : State) :
    ∀ (ps : List PortsIn) (n : Nat), ps.length < n → (∀ q ∈ ps, q.rst = false) →
      clockEdges ps (s.accept r n) = .next (s.accept r (n - ps.length))
  | [], _, _, _ => rfl
  | p :: ps, n, hlen, hrst => by
    obtain ⟨hp, hps⟩ := List.forall_mem_cons.mp hrst
    rw [List.length_cons] at hlen
    obtain ⟨k, rfl⟩ : ∃ k, n = k + 2 := ⟨n - 2, by omega⟩
    rw [clockEdges_cons ps (clockEdge_waits r k s hp), clockEdges_wait r s ps (k + 1) (by omega) hps,
      List.length_cons, Nat.add_sub_add_right (k + 1) 1]

/-- Settles O19: the accepting edge writes only the handshake, and the edges after it only the distance. -/
theorem registersHoldDuringTheFlight : Obligations.RegistersHoldDuringTheFlight := by
  intro s p ps hidle hready hrst hvalid hquiet hlen
  calc clockEdges (p :: ps) s
      = clockEdges ps (s.accept p.request (latency p.request.cmd)) :=
        clockEdges_cons ps (clockEdge_accepts hidle hready hrst hvalid)
    _ = .next (s.accept p.request (latency p.request.cmd - ps.length)) := clockEdges_wait p.request s ps _ hlen hquiet

/-- With no command in flight no edge gives a response. -/
theorem clockEdge_no_response (p : PortsIn) {s : State} (hidle : s.inFlight = none) :
    ∃ t, clockEdge p s = .next t ∧ t.rspValid = false := by
  cases hrst : p.rst with
  | true => exact ⟨_, clockEdge_resets s hrst, rfl⟩
  | false =>
    cases hoffer : p.cmdValid && s.cmdReady with
    | true =>
      obtain ⟨hvalid, hready⟩ := Bool.and_eq_true_iff.mp hoffer
      exact ⟨_, clockEdge_accepts hidle hready hrst hvalid, rfl⟩
    | false => exact ⟨_, clockEdge_idles hidle hrst hoffer, rfl⟩

/-- Settles O21: of the five things an edge can do only a completion raises `rsp_valid`, and it leaves nothing in flight. -/
theorem responseIsOnePulse : Obligations.ResponseIsOnePulse := by
  intro p s t hedge hvalid
  obtain ⟨-, rfl⟩ | ⟨hrst, flight, hflight, ⟨hlast, hdone⟩ | ⟨-, rfl⟩⟩ | ⟨-, -, ⟨-, -, rfl⟩ | ⟨-, rfl⟩⟩ :=
    clockEdge_cases hedge
  · cases hvalid
  · obtain ⟨u, -, rfl⟩ := complete_cases hdone
    exact ⟨hrst, rfl, rfl, ⟨flight, hflight, hlast⟩, fun q => clockEdge_no_response q rfl⟩
  · cases hvalid
  · cases hvalid
  · cases hvalid

/-- Settles O22: the edges up to the completing one are one step with the command, and that step ends in the response. -/
theorem responseCarriesStatusAndResults : Obligations.ResponseCarriesStatusAndResults := by
  intro s p ps hidle hready hrst hvalid hquiet hlen
  obtain ⟨u, -, hu, -⟩ := perform_effect p.request s
  refine ⟨u.respond, u, ?_, hu, rfl⟩
  calc clockEdges (p :: ps) s
      = step { s with host := .command p.request :: s.host } :=
        edgesUntilCompletionAreOneStep s p ps hidle hready hrst hvalid hquiet hlen
    _ = complete p.request s := step_command rfl hidle
    _ = .next u.respond := congrArg (mapNext State.respond) hu

end Sys2Proof.Machine
end

section
/-! PROOFS of family 10_state: which inputs the decoder reads (10_state.md R30), which words it rejects (30_encoding.md R57),
and the steps that run no decoded command. -/

namespace Sys2Proof

/-- The opcodes of format N whose commands take no operand input (10_state.md R30, 30_encoding.md R56). -/
abbrev PlainOpcode (op : BitVec 4) : Prop :=
  op = 0x0 ∨ op = 0x2 ∨ op = 0x3 ∨ op = 0x4 ∨ op = 0x5 ∨ op = 0x6 ∨ op = 0x8

theorem opcode_kinds (op : BitVec 4) : PlainOpcode op ∨ op = 0x7 ∨ op = 0x1 ∨ op = 0x9 ∨ 10 ≤ op.toNat := by
  revert op
  decide

/-- The one command of a plain opcode, whatever the operand inputs. -/
theorem decodeRequest_plain {c : CmdWord} (hop : PlainOpcode (opcode c)) :
    ∃ i, ∀ r : Request, r.cmd = c → decodeRequest r = decodeFormatN i c := by
  obtain h | h | h | h | h | h | h := hop
  · exact ⟨.nop, by rintro r rfl; exact decodeRequest_nop h⟩
  · exact ⟨.incr, by rintro r rfl; exact decodeRequest_incr h⟩
  · exact ⟨.decode, by rintro r rfl; exact decodeRequest_decode h⟩
  · exact ⟨.tobcd, by rintro r rfl; exact decodeRequest_tobcd h⟩
  · exact ⟨.rdflags, by rintro r rfl; exact decodeRequest_rdflags h⟩
  · exact ⟨.rdub, by rintro r rfl; exact decodeRequest_rdub h⟩
  · exact ⟨.rdcnt, by rintro r rfl; exact decodeRequest_rdcnt h⟩

/-! ### The inputs a word uses -/

theorem decodeRequest_congr_plain {r q : Request} (hcmd : r.cmd = q.cmd) (hload : opcode r.cmd ≠ 0x1)
    (hwrub : opcode r.cmd ≠ 0x7) : decodeRequest r = decodeRequest q := by
  obtain hop | hop | hop | hop | hop := opcode_kinds (opcode r.cmd)
  · obtain ⟨i, hi⟩ := decodeRequest_plain hop
    rw [hi r rfl, hi q hcmd.symm]
  · exact absurd hop hwrub
  · exact absurd hop hload
  · rw [decodeRequest_rdrate hop, decodeRequest_rdrate (hcmd ▸ hop), hcmd]
  · rw [decodeRequest_reserved hop, decodeRequest_reserved (hcmd ▸ hop), hcmd]

theorem decodeRequest_congr_wrub {r q : Request} (hcmd : r.cmd = q.cmd) (hop : opcode r.cmd = 0x7)
    (hub : r.operands.ubIn = q.operands.ubIn) : decodeRequest r = decodeRequest q := by
  rw [decodeRequest_wrub hop, decodeRequest_wrub (hcmd ▸ hop), hcmd, hub]

theorem decodeRequest_congr_load {r q : Request} (hcmd : r.cmd = q.cmd) (hop : opcode r.cmd = 0x1)
    (hfps : r.operands.fpsIn = q.operands.fpsIn) (hh : r.operands.hIn = q.operands.hIn)
    (hm : r.operands.mIn = q.operands.mIn) (hs : r.operands.sIn = q.operands.sIn)
    (hf : r.operands.fIn = q.operands.fIn) : decodeRequest r = decodeRequest q := by
  rw [decodeRequest_load hop, decodeRequest_load (hcmd ▸ hop), decodeFormatL, decodeFormatL, hcmd, hfps, hh, hm, hs, hf]

/-! ### Illegal words -/

theorem legal_formatN {c : CmdWord} (hop : PlainOpcode (opcode c) ∨ opcode c = 0x7) :
    legal c = decide (formatBits c = 0) := by
  rw [legal, if_pos (by tauto)]

theorem legal_formatL {c : CmdWord} (hop : opcode c = 0x1) : legal c = decide (c.extractLsb' 6 2 = 0) := by
  simp [legal, hop]

theorem legal_formatR {c : CmdWord} (hop : opcode c = 0x9) :
    legal c = decide (c.getLsbD 7 = false ∧ selInRange (fieldSEL c) = true) := by
  simp [legal, hop, selInRange]

theorem decodeFormatN_illegal {c : CmdWord} (hc : legal c = false) (hop : PlainOpcode (opcode c) ∨ opcode c = 0x7)
    (i : Instr) : decodeFormatN i c = .error (.reservedBits c) := by
  rw [legal_formatN hop, decide_eq_false_iff_not] at hc
  exact decodeFormatN_set hc

theorem decodeFormatL_illegal {r : Request} (hc : legal r.cmd = false) (hop : opcode r.cmd = 0x1) :
    decodeFormatL r = .error (.reservedBits r.cmd) := by
  rw [legal_formatL hop, decide_eq_false_iff_not] at hc
  exact if_neg hc

theorem decodeFormatR_illegal {c : CmdWord} (hc : legal c = false) (hop : opcode c = 0x9) :
    ∃ e, decodeFormatR c = .error e := by
  rw [legal_formatR hop, decide_eq_false_iff_not] at hc
  unfold decodeFormatR
  split
  · exact ⟨_, rfl⟩
  · next hbit => exact ⟨_, if_neg fun hsel => hc ⟨Bool.eq_false_of_not_eq_true hbit, hsel⟩⟩

/-- The decoder rejects the words that are not legal (30_encoding.md R57). -/
theorem decodeRequest_illegal {r : Request} (hc : legal r.cmd = false) : ∃ e, decodeRequest r = .error e := by
  obtain hop | hop | hop | hop | hop := opcode_kinds (opcode r.cmd)
  · obtain ⟨i, hi⟩ := decodeRequest_plain hop
    exact ⟨_, (hi r rfl).trans (decodeFormatN_illegal hc (.inl hop) i)⟩
  · exact ⟨_, (decodeRequest_wrub hop).trans (decodeFormatN_illegal hc (.inr hop) _)⟩
  · exact ⟨_, (decodeRequest_load hop).trans (decodeFormatL_illegal hc hop)⟩
  · obtain ⟨e, he⟩ := decodeFormatR_illegal hc hop
    exact ⟨e, (decodeRequest_rdrate hop).trans he⟩
  · exact ⟨_, decodeRequest_reserved hop⟩

namespace Machine

/-- The command step sees of a request only what the decoder reads from it. -/
theorem perform_congr {r q : Request} (h : decodeRequest r = decodeRequest q) (s : State) : perform r s = perform q s := by
  rw [perform, perform, h]

/-- Settles O6. -/
theorem unusedInputsHaveNoEffect : Obligations.UnusedInputsHaveNoEffect := by
  intro r q s hcmd
  refine ⟨fun hload hwrub => ?_, fun hop hub => ?_, fun hop hfps hh hm hs hf => ?_⟩
  · exact perform_congr (decodeRequest_congr_plain hcmd hload hwrub) s
  · exact perform_congr (decodeRequest_congr_wrub hcmd hop hub) s
  · exact perform_congr (decodeRequest_congr_load hcmd hop hfps hh hm hs hf) s

theorem complete_illegal {r : Request} (hc : legal r.cmd = false) (s : State) :
    complete r s = .next (s.finish .illegal .zero).respond := by
  obtain ⟨e, he⟩ := decodeRequest_illegal hc
  rw [complete, perform_illegal s he, mapNext_next]

theorem step_reset {s : State} {rest : List HostEvent} (hhost : s.host = .reset :: rest) :
    step s = .next (s.setHost rest).resetRegisters := by
  simp only [step, hostStep, hhost]

theorem step_flight {s : State} {flight : Flight} (hflight : s.inFlight = some flight)
    (hhost : ∀ rest, s.host ≠ .reset :: rest) : step s = complete flight.request s := by
  unfold step hostStep
  split
  · next rest hreset => exact absurd hreset (hhost rest)
  · next other hother _ => rw [Option.some.inj (hother.symm.trans hflight)]
  · next hnone => exact absurd (hnone.symm.trans hflight) nofun
  · next hnone => exact absurd (hnone.symm.trans hflight) nofun

theorem step_idle {s : State} (hhost : s.host = []) (hidle : s.inFlight = none) : step s = .next s.idle := by
  simp only [step, hostStep, hhost, hidle]

/-- Settles O10. -/
theorem stepOnTheOtherEvents : Obligations.StepOnTheOtherEvents := by
  refine ⟨fun s r rest hhost hidle hc => ?_, fun s rest hhost => ?_, fun s flight hflight hhost => ?_,
    fun s hhost hidle => ?_⟩
  · exact (step_command hhost hidle).trans (complete_illegal hc (s.setHost rest))
  · exact step_reset hhost
  · exact step_flight hflight hhost
  · exact step_idle hhost hidle

end Machine

end Sys2Proof
end

section
/-! PROOFS of family 10_state: a decoded label gives its count back (42_decode.md R98), so DECODE can be fed to LOAD. -/

namespace Sys2Proof.Machine

theorem rateConsts_sf_pos {fps : Nat} (hfps : 1 ≤ fps) : 1 ≤ (rateConsts fps).sf := by
  show 1 ≤ scaledFps fps
  unfold scaledFps
  split <;> omega

/-- Encoding the label of a base gives the base back. -/
theorem fieldsToBase_baseToLabel {fps : Nat} (hsf : 1 ≤ (rateConsts fps).sf) (df : Bool) (base : Nat) :
    fieldsToBase fps df (baseToLabel fps df base).h (baseToLabel fps df base).m (baseToLabel fps df base).s
      (baseToLabel fps df base).f = base := by
  obtain ⟨h, m, x, hm, hfirst, hx, rfl⟩ := exists_minute hsf df base
  rw [baseToLabel_minute hsf df h hm hfirst hx, fieldsToBase_eq_minuteBase, Nat.div_add_mod']

theorem le_minuteBase {fps : Nat} (hsf : 1 ≤ (rateConsts fps).sf) (df : Bool) (h m : Nat) :
    h ≤ minuteBase fps df h m := by
  have htwo := rateConsts_dfpm_add_two hsf
  have hfpm := rateConsts_fpm fps
  have hfph := rateConsts_fph fps
  have hdfp10 := rateConsts_dfp10 fps
  have hdfph := rateConsts_dfph fps
  cases df with
  | false =>
    calc h ≤ h * (rateConsts fps).fph := Nat.le_mul_of_pos_right h (by omega)
      _ ≤ minuteBase fps false h m := Nat.le_add_right _ _
  | true =>
    calc h ≤ h * (rateConsts fps).dfph := Nat.le_mul_of_pos_right h (by omega)
      _ ≤ minuteBase fps true h m := (Nat.le_add_right _ _).trans (Nat.le_add_right _ _)

/-- No field of a label exceeds the base it shows, but for a minute, which is below 60. -/
theorem baseToLabel_le {fps : Nat} (hsf : 1 ≤ (rateConsts fps).sf) (df : Bool) (base : Nat) :
    (baseToLabel fps df base).h ≤ base ∧ (baseToLabel fps df base).m < 60 ∧ (baseToLabel fps df base).s ≤ base ∧
      (baseToLabel fps df base).f ≤ base := by
  obtain ⟨h, m, x, hm, hfirst, hx, rfl⟩ := exists_minute hsf df base
  rw [baseToLabel_minute hsf df h hm hfirst hx]
  have hhour := le_minuteBase hsf df h m
  have hsec := Nat.div_le_self x (rateConsts fps).sf
  have hframe := Nat.mod_le x (rateConsts fps).sf
  exact ⟨by dsimp only; omega, hm, by dsimp only; omega, by dsimp only; omega⟩

/-- The exact count of a decoded label, in the field the count is in, is the count (42_decode.md R98). -/
theorem exactCount_countToFields {fps : Nat} (hsf : 1 ≤ (rateConsts fps).sf) (df : Bool) (cnt : Nat) :
    exactCount fps df (countToFields fps df cnt).h (countToFields fps df cnt).m (countToFields fps df cnt).s
      (countToFields fps df cnt).f (decide (fps > 30) && decide (cnt % 2 = 1)) = cnt := by
  rw [exactCount, countToFields_eq_baseToLabel, fieldsToBase_baseToLabel hsf, countToBase]
  split
  · next hfps =>
    have hbit : bitValue (decide (fps > 30) && decide (cnt % 2 = 1)) = cnt % 2 := by
      rw [decide_eq_true hfps, Bool.true_and]
      obtain h | h := Nat.mod_two_eq_zero_or_one cnt <;> rw [h] <;> rfl
    rw [hbit, Nat.div_add_mod']
  · rfl

theorem countToBase_le (fps cnt : Nat) : countToBase fps cnt ≤ cnt := by
  unfold countToBase
  split <;> omega

/-- The fields of a configured core fit the result registers (42_decode.md R100), so encoding the results gives the
counter. -/
theorem State.fieldsToCount_results {s : State} (hfps : s.fps ≠ 0) :
    fieldsToCount s.fps.toNat s.drop s.fields.results.r0.toNat s.fields.results.r1.toNat s.fields.results.r2.toNat
      s.fields.results.r3.toNat s.fieldMark = s.counter := by
  have hpos : 1 ≤ s.fps.toNat := Nat.one_le_iff_ne_zero.mpr fun h => hfps (BitVec.eq_of_toNat_eq h)
  have hsf := rateConsts_sf_pos hpos
  have hbase := countToBase_le s.fps.toNat s.counter.toNat
  have hcount := s.counter.isLt
  obtain ⟨hh, hm, hsec, hf⟩ : s.fields.h ≤ countToBase s.fps.toNat s.counter.toNat ∧ s.fields.m < 60 ∧
      s.fields.s ≤ countToBase s.fps.toNat s.counter.toNat ∧ s.fields.f ≤ countToBase s.fps.toNat s.counter.toNat :=
    baseToLabel_le hsf s.drop _
  have hexact := exactCount_countToFields hsf s.drop s.counter.toNat
  rw [Fields.results, trunc32_toNat (by omega), trunc32_toNat (by omega), trunc32_toNat (by omega),
    trunc32_toNat (by omega), fieldsToCount, s.fieldMark_eq]
  exact (congrArg trunc32 hexact).trans (BitVec.eq_of_toNat_eq (trunc32_toNat s.counter.isLt))

/-- Settles O59. -/
theorem decodeThenLoadRestoresTheCounter : Obligations.DecodeThenLoadRestoresTheCounter := by
  intro s hfps
  have hcounter := s.fieldsToCount_results hfps
  refine ⟨_, _, guardRate_configured hfps, execLoad_configures hfps _ _ _ _ _ _ _, hcounter, rfl, rfl, ?_⟩
  exact congrArg (fieldMarkOf s.fps) hcounter

end Sys2Proof.Machine
end

section
/-! PROOFS of family 20_memory: a run of commands from the host's list (20_memory.md R44), and the commands that only
read (R42). -/

namespace Sys2Proof.Machine

/-! ### A run of commands -/

/-- The step that takes a command from the host's list is the command step on the registers: what stood on the port
before does not matter. -/
theorem step_withPort_command (ready valid : Bool) (r : Request) (rest : List HostEvent) (s : State) :
    step (s.withPort ready valid none (.command r :: rest)) =
      mapNext (State.withPort true true none rest) (perform r s) :=
  (step_command rfl rfl).trans (complete_withPort ready valid none rest r s)

theorem run_step (M : Host.Core) {s t : M.State} (k : Nat) (h : M.step s = .next t) : M.run (k + 1) s = M.run k t := by
  rw [Host.Core.run, h]

/-- The first step of a run, from an idle core with any port. -/
theorem run_command (ready valid : Bool) {r : Request} {s t : State} (rs : List Request) (h : perform r s = .next t) :
    core.run (r :: rs).length (s.withPort ready valid none ((r :: rs).map .command)) =
      core.run rs.length (t.withPort true true none (rs.map .command)) :=
  run_step core rs.length ((step_withPort_command ready valid r _ s).trans (congrArg (mapNext _) h))

/-- Between two commands of a run the core is idle and still shows the response of the one before. -/
theorem run_after_response (rs : List Request) (s : State) :
    core.run rs.length (s.withPort true true none (rs.map .command)) =
      mapNext (State.withPort true true none []) (performAll rs s) := by
  induction rs generalizing s with
  | nil => rfl
  | cons r rs ih =>
    obtain ⟨t, -, ht, -⟩ := perform_effect r s
    rw [run_command true true rs ht, ih t, performAll_cons rs ht]

/-- Settles O12: the first command leaves the response that every later one finds. -/
theorem runAppliesCommandsInOrder : Obligations.RunAppliesCommandsInOrder := by
  intro rs s hne hidle hhost
  obtain ⟨r, rest, rfl⟩ := List.exists_cons_of_ne_nil hne
  obtain ⟨t, -, ht, -⟩ := perform_effect r s
  have hport : s = s.withPort s.cmdReady s.rspValid none ((r :: rest).map .command) := by
    rw [← hidle, ← hhost, State.withPort_self]
  have hfirst : core.run (r :: rest).length s = core.run rest.length (t.withPort true true none (rest.map .command)) :=
    (congrArg (core.run _) hport).trans (run_command _ _ rest ht)
  rw [performAll_cons rest ht]
  exact hfirst.trans (run_after_response rest t)

/-- Settles O9. -/
theorem stepRunsTheDecodedCommand : Obligations.StepRunsTheDecodedCommand := by
  intro s r rest i hhost hidle hdecode
  calc step s
      = complete r (s.setHost rest) := step_command hhost hidle
    _ = mapNext State.respond (exec i (s.setHost rest)) := congrArg (mapNext _) (perform_legal _ hdecode)

/-! ### Commands that only read -/

/-- The seven commands that read state (20_memory.md R42). -/
abbrev ReadingCommand (i : Instr) : Prop :=
  i = .nop ∨ i = .decode ∨ i = .tobcd ∨ i = .rdflags ∨ i = .rdub ∨ i = .rdcnt ∨ ∃ sel, i = .rdrate sel

/-- A reading command writes RES and STATUS alone, whether it succeeds or fails. -/
theorem CommandEffect.finish_of_reading {i : Instr} {s t : State} (heffect : CommandEffect i s t)
    (hreads : ReadingCommand i) : ∃ code r, t = s.finish code r := by
  cases heffect with
  | fails | reads => exact ⟨_, _, rfl⟩
  | loads | counts | writesUserBits => simp [ReadingCommand] at hreads

/-- Settles O30: the second issue differs from the first in the old RES and STATUS alone, which no command sees. -/
theorem readCommandsAreIdempotent : Obligations.ReadCommandsAreIdempotent := by
  intro i s hreads
  obtain ⟨t, ht, heffect⟩ := exec_effect i s
  obtain ⟨code, r, rfl⟩ := heffect.finish_of_reading hreads
  have hagain : exec i (s.finish code r) = exec i s := oldResultsAndStatusAreInvisible i s r code
  exact ⟨_, ht, rfl, hagain.trans ht⟩

end Sys2Proof.Machine
end

section
/-! PROOFS of family 30_encoding: which command a legal word stands for, and the decoder and the encoder as inverses of each
other (30_encoding.md R51 to R57). -/

namespace Sys2Proof

/-! ### The fields of an encoded word -/

@[simp] theorem opcode_encodeFormatN (op : BitVec 4) : opcode (encodeFormatN op) = op := by
  revert op
  decide

@[simp] theorem formatBits_encodeFormatN (op : BitVec 4) : formatBits (encodeFormatN op) = 0 := by
  revert op
  decide

theorem encodeFormatN_opcode {c : CmdWord} (h : formatBits c = 0) : encodeFormatN (opcode c) = c := by
  rw [encodeFormatN, show 0b0000#4 = formatBits c from h.symm, formatBits, opcode,
    BitVec.extractLsb'_append_extractLsb'_eq_extractLsb' (by rfl)]
  exact BitVec.extractLsb'_eq_self

/-- The word of LOAD with the two flags in place (30_encoding.md R52, R53). -/
abbrev loadWord (df fp : Bool) : CmdWord := 0b00#2 ++ BitVec.ofBool fp ++ BitVec.ofBool df ++ 0x1#4

/-- The word of RDRATE with the selector in place (30_encoding.md R54). -/
abbrev rdrateWord (sel : BitVec 3) : CmdWord := 0b0#1 ++ sel ++ 0x9#4

theorem loadWord_fields (df fp : Bool) :
    opcode (loadWord df fp) = 0x1 ∧ fieldDF (loadWord df fp) = df ∧ fieldFP (loadWord df fp) = fp := by
  revert df fp
  decide

theorem rdrateWord_fields (sel : BitVec 3) : opcode (rdrateWord sel) = 0x9 ∧ fieldSEL (rdrateWord sel) = sel := by
  revert sel
  decide

theorem loadWord_eq {c : CmdWord} (hop : opcode c = 0x1) (hbits : c.extractLsb' 6 2 = 0) :
    loadWord (fieldDF c) (fieldFP c) = c := by
  revert c
  decide

theorem rdrateWord_eq {c : CmdWord} (hop : opcode c = 0x9) (hbit : c.getLsbD 7 = false) : rdrateWord (fieldSEL c) = c := by
  revert c
  decide

/-! ### The opcode map -/

/-- The row of the opcode map (30_encoding.md R56) that a request falls in, and the command it stands for there with the
operands of the row; whether the word is a legal one of the row is left to `legal`. -/
inductive InRow (r : Request) : Instr → Prop
  | nop (hop : opcode r.cmd = 0x0) : InRow r .nop
  | load (hop : opcode r.cmd = 0x1) :
      InRow r (.load (fieldDF r.cmd) (fieldFP r.cmd) r.operands.fpsIn r.operands.hIn r.operands.mIn r.operands.sIn
        r.operands.fIn)
  | incr (hop : opcode r.cmd = 0x2) : InRow r .incr
  | decode (hop : opcode r.cmd = 0x3) : InRow r .decode
  | tobcd (hop : opcode r.cmd = 0x4) : InRow r .tobcd
  | rdflags (hop : opcode r.cmd = 0x5) : InRow r .rdflags
  | rdub (hop : opcode r.cmd = 0x6) : InRow r .rdub
  | wrub (hop : opcode r.cmd = 0x7) : InRow r (.wrub r.operands.ubIn)
  | rdcnt (hop : opcode r.cmd = 0x8) : InRow r .rdcnt
  | rdrate (hop : opcode r.cmd = 0x9) : InRow r (.rdrate (fieldSEL r.cmd))

/-- R57's condition for a legal word, as the three formats of 30_encoding.md R51 give it. -/
theorem legal_iff (c : CmdWord) : legal c = true ↔
    (opcode c ∈ ([0x0, 0x2, 0x3, 0x4, 0x5, 0x6, 0x7, 0x8] : List (BitVec 4)) ∧ formatBits c = 0) ∨
      (opcode c = 0x1 ∧ c.extractLsb' 6 2 = 0) ∨
      (opcode c = 0x9 ∧ c.getLsbD 7 = false ∧ (fieldSEL c).toNat ≤ 5) := by
  simp only [legal, List.mem_cons, List.not_mem_nil, or_false]
  generalize opcode c = op
  split_ifs with hN hL hR
  · rcases hN with rfl | rfl | rfl | rfl | rfl | rfl | rfl | rfl <;> simp
  · simp [hL]
  · simp [hR]
  · simp only [hN, hL, hR, false_and, or_self]

theorem opcode_lt_of_legal {c : CmdWord} (hc : legal c = true) : (opcode c).toNat < 10 := by
  have hN : ∀ op ∈ ([0x0, 0x2, 0x3, 0x4, 0x5, 0x6, 0x7, 0x8] : List (BitVec 4)), op.toNat < 10 := by decide
  obtain ⟨hop, -⟩ | ⟨hop, -⟩ | ⟨hop, -⟩ := (legal_iff c).mp hc
  · exact hN _ hop
  · rw [hop]; decide
  · rw [hop]; decide

theorem exists_inRow {r : Request} (hc : legal r.cmd = true) : ∃ i, InRow r i := by
  obtain hop | hop | hop | hop | hop | hop | hop | hop | hop | hop | hop := opcode_cases (opcode r.cmd)
  · exact ⟨_, .nop hop⟩
  · exact ⟨_, .load hop⟩
  · exact ⟨_, .incr hop⟩
  · exact ⟨_, .decode hop⟩
  · exact ⟨_, .tobcd hop⟩
  · exact ⟨_, .rdflags hop⟩
  · exact ⟨_, .rdub hop⟩
  · exact ⟨_, .wrub hop⟩
  · exact ⟨_, .rdcnt hop⟩
  · exact ⟨_, .rdrate hop⟩
  · exact absurd (opcode_lt_of_legal hc) (Nat.not_lt.mpr hop)

theorem formatBits_of_legal {c : CmdWord} {op : BitVec 4} (hc : legal c = true) (hop : opcode c = op)
    (hN : PlainOpcode op ∨ op = 0x7) : formatBits c = 0 := by
  subst hop
  exact of_decide_eq_true ((legal_formatN hN).symm.trans hc)

theorem formatL_of_legal {c : CmdWord} (hc : legal c = true) (hop : opcode c = 0x1) : c.extractLsb' 6 2 = 0 :=
  of_decide_eq_true ((legal_formatL hop).symm.trans hc)

theorem formatR_of_legal {c : CmdWord} (hc : legal c = true) (hop : opcode c = 0x9) :
    c.getLsbD 7 = false ∧ selInRange (fieldSEL c) = true :=
  of_decide_eq_true ((legal_formatR hop).symm.trans hc)

/-- A legal word decodes to the command of its row. -/
theorem InRow.decodes {r : Request} {i : Instr} (hrow : InRow r i) (hc : legal r.cmd = true) : decodeRequest r = .ok i := by
  cases hrow with
  | nop hop => rw [decodeRequest_nop hop, decodeFormatN_zero (formatBits_of_legal hc hop (by decide))]
  | incr hop => rw [decodeRequest_incr hop, decodeFormatN_zero (formatBits_of_legal hc hop (by decide))]
  | decode hop => rw [decodeRequest_decode hop, decodeFormatN_zero (formatBits_of_legal hc hop (by decide))]
  | tobcd hop => rw [decodeRequest_tobcd hop, decodeFormatN_zero (formatBits_of_legal hc hop (by decide))]
  | rdflags hop => rw [decodeRequest_rdflags hop, decodeFormatN_zero (formatBits_of_legal hc hop (by decide))]
  | rdub hop => rw [decodeRequest_rdub hop, decodeFormatN_zero (formatBits_of_legal hc hop (by decide))]
  | wrub hop => rw [decodeRequest_wrub hop, decodeFormatN_zero (formatBits_of_legal hc hop (by decide))]
  | rdcnt hop => rw [decodeRequest_rdcnt hop, decodeFormatN_zero (formatBits_of_legal hc hop (by decide))]
  | load hop => rw [decodeRequest_load hop, decodeFormatL, if_pos (formatL_of_legal hc hop)]
  | rdrate hop =>
    obtain ⟨hbit, hsel⟩ := formatR_of_legal hc hop
    rw [decodeRequest_rdrate hop, decodeFormatR, if_neg (Bool.eq_false_iff.mp hbit), if_pos hsel]

/-- The decoder said once: it reads a command exactly from a legal word, and it is the one of the word's row. -/
theorem decodeRequest_eq_ok_iff {r : Request} {i : Instr} :
    decodeRequest r = .ok i ↔ legal r.cmd = true ∧ InRow r i := by
  refine ⟨fun hdecode => ?_, fun ⟨hc, hrow⟩ => hrow.decodes hc⟩
  have hc : legal r.cmd = true := by
    by_contra hillegal
    obtain ⟨e, he⟩ := decodeRequest_illegal (Bool.eq_false_of_not_eq_true hillegal)
    exact nomatch hdecode.symm.trans he
  obtain ⟨j, hrow⟩ := exists_inRow hc
  obtain rfl : j = i := Except.ok.inj ((hrow.decodes hc).symm.trans hdecode)
  exact ⟨hc, hrow⟩

theorem legal_iff_exists_decode (r : Request) : legal r.cmd = true ↔ ∃ i, decodeRequest r = .ok i := by
  refine ⟨fun hc => ?_, fun ⟨i, hdecode⟩ => (decodeRequest_eq_ok_iff.mp hdecode).1⟩
  obtain ⟨i, hrow⟩ := exists_inRow hc
  exact ⟨i, hrow.decodes hc⟩

/-! ### The encoder -/

/-- The encoding of a well-formed command is a legal word (30_encoding.md R57). -/
theorem legal_encode {i : Instr} (hwf : WellFormed i = true) : legal (encode i).cmd = true := by
  cases i with
  | nop => exact Laws.EncodesLegally.nop hwf
  | load => exact Laws.EncodesLegally.load _ _ _ _ _ _ _ hwf
  | incr => exact Laws.EncodesLegally.incr hwf
  | decode => exact Laws.EncodesLegally.decode hwf
  | tobcd => exact Laws.EncodesLegally.tobcd hwf
  | rdflags => exact Laws.EncodesLegally.rdflags hwf
  | rdub => exact Laws.EncodesLegally.rdub hwf
  | wrub => exact Laws.EncodesLegally.wrub _ hwf
  | rdcnt => exact Laws.EncodesLegally.rdcnt hwf
  | rdrate => exact Laws.EncodesLegally.rdrate _ hwf

/-- Every command is encoded in its own row, with its own operands. -/
theorem inRow_encode (i : Instr) : InRow (encode i) i := by
  cases i with
  | nop => exact .nop (opcode_encodeFormatN _)
  | load df fp fpsIn hIn mIn sIn fIn =>
    obtain ⟨hop, hdf, hfp⟩ := loadWord_fields df fp
    have hrow : InRow (encode (.load df fp fpsIn hIn mIn sIn fIn))
        (.load (fieldDF (loadWord df fp)) (fieldFP (loadWord df fp)) fpsIn hIn mIn sIn fIn) := .load hop
    rwa [hdf, hfp] at hrow
  | incr => exact .incr (opcode_encodeFormatN _)
  | decode => exact .decode (opcode_encodeFormatN _)
  | tobcd => exact .tobcd (opcode_encodeFormatN _)
  | rdflags => exact .rdflags (opcode_encodeFormatN _)
  | rdub => exact .rdub (opcode_encodeFormatN _)
  | wrub ubIn => exact .wrub (opcode_encodeFormatN _)
  | rdcnt => exact .rdcnt (opcode_encodeFormatN _)
  | rdrate sel =>
    obtain ⟨hop, hsel⟩ := rdrateWord_fields sel
    have hrow : InRow (encode (.rdrate sel)) (.rdrate (fieldSEL (rdrateWord sel))) := .rdrate hop
    rwa [hsel] at hrow

/-- Settles O1: the encoding is a legal word, and it stands in the command's own row. -/
theorem decodeEncodeRoundTrip : Obligations.DecodeEncodeRoundTrip := fun i hwf =>
  (inRow_encode i).decodes (legal_encode hwf)

/-- The command of a legal word's row is well formed and has that word. -/
theorem InRow.encode_cmd {r : Request} {i : Instr} (hrow : InRow r i) (hc : legal r.cmd = true) :
    WellFormed i = true ∧ (encode i).cmd = r.cmd := by
  have hword {op : BitVec 4} (hop : opcode r.cmd = op) (hN : PlainOpcode op ∨ op = 0x7) : encodeFormatN op = r.cmd := by
    rw [← hop, encodeFormatN_opcode (formatBits_of_legal hc hop hN)]
  cases hrow with
  | nop hop | incr hop | decode hop | tobcd hop | rdflags hop | rdub hop | wrub hop | rdcnt hop =>
    exact ⟨rfl, hword hop (by decide)⟩
  | load hop => exact ⟨rfl, loadWord_eq hop (formatL_of_legal hc hop)⟩
  | rdrate hop =>
    obtain ⟨hbit, hsel⟩ := formatR_of_legal hc hop
    exact ⟨hsel, rdrateWord_eq hop hbit⟩

/-- Settles O2. -/
theorem decodedCommandKeepsItsWord : Obligations.DecodedCommandKeepsItsWord := by
  intro r i hdecode
  obtain ⟨hc, hrow⟩ := decodeRequest_eq_ok_iff.mp hdecode
  obtain ⟨hwf, hword⟩ := hrow.encode_cmd hc
  refine ⟨hwf, hword, ?_, ?_⟩
  · rintro df fp fps h m s f rfl
    cases hrow
    exact ⟨rfl, rfl, rfl, rfl, rfl⟩
  · rintro u rfl
    cases hrow
    rfl

/-- The opcodes that need the rate are those of the five commands of R58. -/
theorem InRow.needsRate_iff {r : Request} {i : Instr} (hrow : InRow r i) : needsRate (opcode r.cmd) = true ↔
    i = .incr ∨ i = .decode ∨ i = .tobcd ∨ i = .rdflags ∨ ∃ sel, i = .rdrate sel := by
  cases hrow with
  | nop hop | load hop | rdub hop | wrub hop | rdcnt hop | incr hop | decode hop | tobcd hop | rdflags hop | rdrate hop =>
    simp [hop, needsRate]

/-! ### The legal words -/

/-- The 18 legal words (30_encoding.md R57). -/
abbrev legalWords : List CmdWord :=
  [0x00, 0x01, 0x11, 0x21, 0x31, 0x02, 0x03, 0x04, 0x05, 0x06, 0x07, 0x08, 0x09, 0x19, 0x29, 0x39, 0x49, 0x59]

theorem encode_cmd_mem_legalWords {i : Instr} (hwf : WellFormed i = true) : (encode i).cmd ∈ legalWords := by
  cases i with
  | nop | incr | decode | tobcd | rdflags | rdub | rdcnt => decide
  | wrub ubIn =>
    show encodeFormatN 0x7 ∈ legalWords
    decide
  | load df fp =>
    have hall : ∀ df fp, loadWord df fp ∈ legalWords := by decide
    exact hall df fp
  | rdrate sel =>
    have hall : ∀ sel, selInRange sel = true → rdrateWord sel ∈ legalWords := by decide
    exact hall sel hwf

/-- A legal word is the word of a well-formed command, and of those there are 18. -/
theorem legal_iff_mem_legalWords (c : CmdWord) : legal c = true ↔ c ∈ legalWords := by
  refine ⟨fun hc => ?_, fun hmem => ?_⟩
  · obtain ⟨i, hrow⟩ := exists_inRow (r := ⟨c, .zero⟩) hc
    obtain ⟨hwf, hword⟩ := hrow.encode_cmd hc
    rw [show c = (encode i).cmd from hword.symm]
    exact encode_cmd_mem_legalWords hwf
  · have hall : ∀ w ∈ legalWords, legal w = true := by decide
    exact hall c hmem

/-- Counting the numbers below `16 * k` row by row, 16 to a row. -/
theorem countP_range_rows (p : Nat → Bool) (k : Nat) :
    (List.range (16 * k)).countP p =
      ((List.range k).map fun hi => (List.range 16).countP fun lo => p (16 * hi + lo)).sum := by
  induction k with
  | zero => rfl
  | succ k ih =>
    rw [Nat.mul_succ, List.range_add, List.countP_append, ih, List.countP_map, List.sum_range_succ]
    rfl

theorem count_legal : ((List.range 256).countP fun n => legal (BitVec.ofNat 8 n)) = 18 :=
  (countP_range_rows (fun n => legal (BitVec.ofNat 8 n)) 16).trans (by decide)

theorem count_illegal : ((List.range 256).countP fun n => !legal (BitVec.ofNat 8 n)) = 238 := by
  have htotal := List.length_eq_countP_add_countP (fun n => legal (BitVec.ofNat 8 n)) (l := List.range 256)
  rw [count_legal, List.length_range] at htotal
  simp only [Bool.not_eq_true, Bool.decide_eq_false] at htotal
  omega

namespace Machine

theorem perform_illegal_word {r : Request} (hc : legal r.cmd = false) (s : State) :
    perform r s = .next (s.finish .illegal .zero) := by
  obtain ⟨e, he⟩ := decodeRequest_illegal hc
  exact perform_illegal s he

/-- Settles O3. -/
theorem legalWordsAndIllegalWords : Obligations.LegalWordsAndIllegalWords :=
  ⟨legal_iff, legal_iff_mem_legalWords, count_legal, count_illegal, legal_iff_exists_decode,
    fun _ s hc => perform_illegal_word hc s⟩

end Machine

end Sys2Proof
end

section
/-! PROOFS of family 30_encoding: the command step arm by arm (30_encoding.md R59), which commands need the rate (R58), the
pseudo-commands (R62) and the worked encodings (R63). -/

namespace Sys2Proof.Machine

/-! ### The command step, arm by arm -/

theorem guardRate_eq (s t : State) :
    guardRate s t = .next (if s.fps = 0 then s.finish .unconfig .zero else t) :=
  (apply_ite Host.Outcome.next _ _ _).symm

theorem execLoad_eq (df fp : Bool) (fps : Word16) (h m sec f : Word32) (s : State) :
    execLoad df fp fps h m sec f s = .next (if fps = 0 then s.finish .badFps .zero else
      (s.construct fps df (fieldsToCount fps.toNat df h.toNat m.toNat sec.toNat f.toNat fp)).finish .ok .zero) :=
  (apply_ite Host.Outcome.next _ _ _).symm

theorem execRdrate_eq {sel : BitVec 3} (hsel : selInRange sel = true) (s : State) :
    execRdrate sel s = guardRate s (done (.single (trunc32 ((rateConsts s.fps.toNat).select sel))) s) :=
  if_pos hsel

/-- Settles O8: an illegal word fails first; for a legal one the opcode selects the arm, which is the meaning of the row's
command. -/
theorem commandStepFollowsItsPseudocode : Obligations.CommandStepFollowsItsPseudocode := by
  intro r s
  by_cases hc : legal r.cmd = false
  · rw [perform_illegal_word hc, if_pos hc]
    rfl
  rw [if_neg hc]
  rw [Bool.not_eq_false] at hc
  obtain ⟨i, hrow⟩ := exists_inRow hc
  rw [perform_legal s (hrow.decodes hc)]
  cases hrow with
  | nop hop | rdub hop | wrub hop | rdcnt hop =>
    simp only [hop, needsRate]
    rfl
  | load hop =>
    simp only [hop, needsRate]
    exact execLoad_eq _ _ _ _ _ _ _ s
  | incr hop | decode hop | tobcd hop | rdflags hop =>
    simp only [hop, needsRate, true_or, or_true, decide_true, true_and]
    exact guardRate_eq s _
  | rdrate hop =>
    simp only [hop, needsRate, or_true, decide_true, true_and]
    exact (execRdrate_eq (formatR_of_legal hc hop).2 s).trans (guardRate_eq s _)

/-! ### Which commands need the rate -/

theorem perform_unconfigured {r : Request} {s : State} (hc : legal r.cmd = true) (hneeds : needsRate (opcode r.cmd) = true)
    (hfps : s.fps = 0) : perform r s = .next (s.finish .unconfig .zero) := by
  rw [commandStepFollowsItsPseudocode r s, if_neg (by simp [hc]), if_pos ⟨hneeds, hfps⟩]
  rfl

theorem execLoad_status (df fp : Bool) (fps : Word16) (h m sec f : Word32) (s : State) :
    ∃ t, execLoad df fp fps h m sec f s = .next t ∧ t.status ≠ .unconfig := by
  refine ⟨_, execLoad_eq df fp fps h m sec f s, ?_⟩
  split <;> exact nofun

/-- A command whose opcode does not need the rate cannot fail for want of it. -/
theorem perform_status_of_needsRate_false {r : Request} (hneeds : needsRate (opcode r.cmd) = false) (s : State) :
    ∃ t, perform r s = .next t ∧ t.status ≠ .unconfig := by
  by_cases hc : legal r.cmd = true
  · obtain ⟨i, hrow⟩ := exists_inRow hc
    rw [perform_legal s (hrow.decodes hc)]
    cases hrow with
    | nop | rdub | wrub | rdcnt => exact ⟨_, rfl, nofun⟩
    | load => exact execLoad_status _ _ _ _ _ _ _ s
    | incr hop | decode hop | tobcd hop | rdflags hop | rdrate hop => simp [hop, needsRate] at hneeds
  · exact ⟨_, perform_illegal_word (Bool.eq_false_of_not_eq_true hc) s, nofun⟩

/-- A command fails with UNCONFIG in the unconfigured state alone. -/
theorem CommandEffect.status_of_configured {i : Instr} {s t : State} (heffect : CommandEffect i s t) (hfps : s.fps ≠ 0) :
    t.status ≠ .unconfig := by
  cases heffect with
  | fails _ _ hrate => exact fun hstatus => hfps (hrate hstatus)
  | reads | loads | counts | writesUserBits => exact nofun

/-- Settles O26. -/
theorem commandsThatNeedTheRate : Obligations.CommandsThatNeedTheRate := by
  refine ⟨fun r i hdecode => ?_, fun r s hc hneeds hfps => perform_unconfigured hc hneeds hfps, fun r s h => ?_⟩
  · obtain ⟨-, hrow⟩ := decodeRequest_eq_ok_iff.mp hdecode
    exact hrow.needsRate_iff
  · obtain hneeds | hfps := h
    · exact perform_status_of_needsRate_false hneeds s
    · obtain ⟨t, i, ht, heffect⟩ := perform_effect r s
      exact ⟨t, ht, heffect.status_of_configured hfps⟩

/-- Settles O31: the decoder looks at the format bits of NOP's opcode and at nothing else. -/
theorem nopClearsResultsAndStatus : Obligations.NopClearsResultsAndStatus := by
  refine ⟨fun s => rfl, fun r s hop => ?_⟩
  split_ifs with hzero
  · exact perform_legal s ((decodeRequest_nop hop).trans (decodeFormatN_zero hzero))
  · exact perform_illegal s ((decodeRequest_nop hop).trans (decodeFormatN_set hzero))

/-! ### The pseudo-commands -/

theorem perform_encode {i : Instr} (hwf : WellFormed i = true) (s : State) : perform (encode i) s = exec i s :=
  perform_legal s (decodeEncodeRoundTrip i hwf)

theorem trunc32_toNat_add (c : Word32) (n : Nat) : trunc32 (c.toNat + n) = c + BitVec.ofNat 32 n := by
  rw [trunc32, BitVec.ofNat_add, BitVec.ofNat_toNat, BitVec.setWidth_eq]

/-- The state that ADVANCE `n` leaves for `n` of at least 1 (30_encoding.md R62). -/
def State.advanced (n : Nat) (s : State) : State :=
  (s.setCounter (s.counter + BitVec.ofNat 32 n)).finish .ok .zero

theorem State.advanced_one_advanced (n : Nat) (s : State) : (s.advanced 1).advanced n = s.advanced (n + 1) := by
  have hcounter : s.counter + BitVec.ofNat 32 1 + BitVec.ofNat 32 n = s.counter + BitVec.ofNat 32 (n + 1) := by
    rw [BitVec.add_assoc, Nat.add_comm n 1, BitVec.ofNat_add]
  exact congrArg (fun c => (s.setCounter c).finish .ok .zero) hcounter

theorem perform_incr_configured {s : State} (hfps : s.fps ≠ 0) : perform (encode .incr) s = .next (s.advanced 1) := by
  rw [perform_encode rfl, exec_incr_configured hfps, trunc32_toNat_add]
  rfl

theorem performAll_advance (n : Nat) {s : State} (hfps : s.fps ≠ 0) :
    performAll ((Instr.advance (n + 1)).map encode) s = .next (s.advanced (n + 1)) := by
  induction n generalizing s with
  | zero => exact performAll_cons [] (perform_incr_configured hfps)
  | succ n ih =>
    calc performAll ((Instr.advance (n + 2)).map encode) s
        = performAll ((Instr.advance (n + 1)).map encode) (s.advanced 1) :=
          performAll_cons _ (perform_incr_configured hfps)
      _ = .next ((s.advanced 1).advanced (n + 1)) := ih hfps
      _ = .next (s.advanced (n + 2)) := by rw [State.advanced_one_advanced]

/-- Settles O7: each INCR of an ADVANCE finds the core configured and counts one further. -/
theorem pseudoCommandsExpand : Obligations.PseudoCommandsExpand :=
  ⟨fun _ _ => rfl, fun _ => rfl, by decide, by decide, by decide, fun n _ hfps => performAll_advance n hfps, fun _ => rfl⟩

/-! ### Fixed words -/

/-- Settles O4: the decoder's answers are the round trip at the rows of the table, up to RDRATE 6, which is not well formed. -/
theorem workedEncodingsDecode : Obligations.WorkedEncodingsDecode :=
  ⟨by decide, rfl, decodeEncodeRoundTrip (.load true false 30 10 11 12 13) rfl,
    by decide, rfl, decodeEncodeRoundTrip (.load true true 60 10 11 12 13) rfl,
    by decide, rfl, decodeEncodeRoundTrip (.load false false 25 0 0 0 0) rfl,
    by decide, rfl, decodeEncodeRoundTrip (.wrub 0xDEADBEEF) rfl,
    by decide, rfl, decodeEncodeRoundTrip (.rdrate 5) rfl,
    by decide, rfl, decodeRequest_rdrate (r := ⟨0x69, .zero⟩) rfl⟩

/-- Settles O5: seven round trips, a set format bit and a reserved opcode. -/
theorem formatNWordsDecode : Obligations.FormatNWordsDecode :=
  ⟨decodeEncodeRoundTrip .nop rfl, decodeEncodeRoundTrip .incr rfl, decodeEncodeRoundTrip .decode rfl,
    decodeEncodeRoundTrip .tobcd rfl, decodeEncodeRoundTrip .rdflags rfl, decodeEncodeRoundTrip .rdub rfl,
    decodeEncodeRoundTrip .rdcnt rfl,
    (decodeRequest_incr (r := ⟨0x12, .zero⟩) rfl).trans (decodeFormatN_set (by decide)),
    decodeRequest_reserved (r := ⟨0x0A, .zero⟩) (by decide)⟩

end Sys2Proof.Machine
end

section
/-! PROOFS of family 40_rate_table: the six rate constants and their bounds (40_rate_table.md R71, R72), and RDRATE, which
returns them (R75). -/

namespace Sys2Proof.Machine

/-! ### The constants over the scaled rate -/

theorem rateConsts_sf_le {fps : Nat} (hmax : fps ≤ 65535) : (rateConsts fps).sf ≤ 32767 := by
  show scaledFps fps ≤ 32767
  unfold scaledFps
  split <;> omega

theorem rateConsts_dfpm_closed (fps : Nat) : (rateConsts fps).dfpm = 60 * (rateConsts fps).sf - 2 :=
  congrArg (· - 2) (Nat.mul_comm _ 60)

/-- Nine short minutes of the ten give up two frames each. -/
theorem rateConsts_dfp10_closed {fps : Nat} (hsf : 1 ≤ (rateConsts fps).sf) :
    (rateConsts fps).dfp10 = 600 * (rateConsts fps).sf - 18 := by
  rw [rateConsts_dfp10, rateConsts_fpm, rateConsts_dfpm_closed]
  omega

theorem rateConsts_dfph_closed {fps : Nat} (hsf : 1 ≤ (rateConsts fps).sf) :
    (rateConsts fps).dfph = 3600 * (rateConsts fps).sf - 108 := by
  rw [rateConsts_dfph, rateConsts_dfp10_closed hsf]
  omega

/-- Settles O42: over the scaled rate every constant is linear, so its range bounds them all. -/
theorem rateConstantsAreBounded : Obligations.RateConstantsAreBounded := by
  intro fps hpos hmax
  have hsf := rateConsts_sf_pos hpos
  have hle := rateConsts_sf_le hmax
  rw [rateConsts_dfph_closed hsf, rateConsts_dfp10_closed hsf, rateConsts_dfpm_closed, rateConsts_fph, rateConsts_fpm]
  refine ⟨hsf, hle, rfl, ?_, rfl, rfl, ?_, ?_, ?_, ?_, ?_, ?_, by decide⟩ <;> omega

/-- Settles O41: the table of R71 is the definition of the constants, and the selectors number its lines. -/
theorem rateConstantsFollowTheTable : Obligations.RateConstantsFollowTheTable := fun fps _ _ =>
  ⟨(rateConsts fps).sf, (rateConsts fps).dfpm, (rateConsts fps).dfp10, rfl, rfl, rfl, rfl, rfl, rfl, rfl, rfl, rfl⟩

theorem RateConsts.select_mem (c : RateConsts) (sel : BitVec 3) :
    c.select sel ∈ [c.sf, c.fph, c.fpm, c.dfpm, c.dfp10, c.dfph] := by
  unfold select
  split <;> simp

/-- Every selected constant fits a result register. -/
theorem rateConsts_select_lt {fps : Nat} (hpos : 1 ≤ fps) (hmax : fps ≤ 65535) (sel : BitVec 3) :
    (rateConsts fps).select sel < 2 ^ 32 := by
  obtain ⟨-, hsf, -, -, -, -, -, hdfpm, hfpm, hdfp10, hdfph, hfph, -⟩ := rateConstantsAreBounded fps hpos hmax
  have hmem := (rateConsts fps).select_mem sel
  simp only [List.mem_cons, List.not_mem_nil, or_false] at hmem
  omega

theorem fps_toNat_pos {s : State} (hfps : s.fps ≠ 0) : 1 ≤ s.fps.toNat :=
  Nat.one_le_iff_ne_zero.mpr fun h => hfps (BitVec.eq_of_toNat_eq h)

/-! ### RDRATE -/

section Rdrate
variable {sel : BitVec 3} {s : State}

theorem exec_rdrate_configured {fps : Word16} (hs : s.fps = fps) (hfps : fps ≠ 0) (hsel : sel.toNat ≤ 5) :
    exec (.rdrate sel) s = .next (s.finish .ok (.single (trunc32 ((rateConsts fps.toNat).select sel)))) := by
  subst hs
  exact (execRdrate_eq (decide_eq_true hsel) s).trans (guardRate_configured hfps)

theorem exec_rdrate_unconfigured (hfps : s.fps = 0) (hsel : sel.toNat ≤ 5) :
    exec (.rdrate sel) s = .next (s.finish .unconfig .zero) :=
  (execRdrate_eq (decide_eq_true hsel) s).trans (guardRate_unconfigured hfps)

theorem exec_rdrate_outOfRange (s : State) (hsel : ¬ sel.toNat ≤ 5) :
    exec (.rdrate sel) s = .next (s.finish .illegal .zero) :=
  if_neg (ne_true_of_eq_false (decide_eq_false hsel))

theorem trunc32_select_toNat (hfps : s.fps ≠ 0) (sel : BitVec 3) :
    (trunc32 ((rateConsts s.fps.toNat).select sel)).toNat = (rateConsts s.fps.toNat).select sel :=
  trunc32_toNat (rateConsts_select_lt (fps_toNat_pos hfps) (Nat.le_of_lt_succ s.fps.isLt) sel)

end Rdrate

/-- What RDRATE writes depends, of the whole state, on FPS alone. -/
theorem exec_rdrate_finish (sel : BitVec 3) (fps : Word16) :
    ∃ code r, ∀ s : State, s.fps = fps → exec (.rdrate sel) s = .next (s.finish code r) := by
  by_cases hsel : sel.toNat ≤ 5
  · by_cases hfps : fps = 0
    · exact ⟨_, _, fun s hs => exec_rdrate_unconfigured (hs.trans hfps) hsel⟩
    · exact ⟨_, _, fun s hs => exec_rdrate_configured hs hfps hsel⟩
  · exact ⟨_, _, fun s _ => exec_rdrate_outOfRange s hsel⟩

/-- A word of RDRATE's opcode: bit 7 clear and a selector of the table, or an illegal word (30_encoding.md R54, R57). -/
theorem perform_rdrate {r : Request} (hop : opcode r.cmd = 0x9) (s : State) :
    perform r s = if r.cmd.getLsbD 7 = false ∧ (fieldSEL r.cmd).toNat ≤ 5 then exec (.rdrate (fieldSEL r.cmd)) s
      else .next (s.finish .illegal .zero) := by
  have hlegal := legal_formatR hop
  simp only [selInRange, decide_eq_true_eq] at hlegal
  split_ifs with hword
  · exact perform_legal s ((InRow.rdrate hop).decodes (hlegal.trans (decide_eq_true hword)))
  · exact perform_illegal_word (hlegal.trans (decide_eq_false hword)) s

/-- Settles O40. -/
theorem rdrateReturnsTheConstant : Obligations.RdrateReturnsTheConstant := by
  refine ⟨fun s sel hfps hsel => exec_rdrate_configured rfl hfps hsel, fun s sel hfps hsel => ?_,
    fun s sel hfps hsel => exec_rdrate_unconfigured hfps hsel, fun r s hop => perform_rdrate hop s,
    fun s sel d => ?_, fun s hfps => ?_, fun s hfps => ?_⟩
  · exact ⟨_, exec_rdrate_configured rfl hfps hsel, trunc32_select_toNat hfps sel⟩
  · obtain ⟨code, r, hexec⟩ := exec_rdrate_finish sel s.fps
    exact ⟨_, hexec s rfl, hexec { s with drop := d } rfl⟩
  · have hvalue : trunc32 ((rateConsts (65535 : Word16).toNat).select 1) = 117961200 := by decide
    rw [exec_rdrate_configured hfps (by decide) (by decide), hvalue]
    rfl
  · have hword : perform ⟨0x59, .zero⟩ s = exec (.rdrate 5) s := perform_encode (i := .rdrate 5) rfl s
    have hvalue : trunc32 ((rateConsts (30 : Word16).toNat).select 5) = 107892 := by decide
    rw [hword, exec_rdrate_configured hfps (by decide) (by decide), hvalue]
    rfl

end Sys2Proof.Machine
end

section
/-! PROOFS of family 41_load_encode: the count of a label (41_load_encode.md R81 to R84), the labels that decode to
themselves and the missing ones that do not (R86), and LOAD (R85) with the user bits around it (70_reset_and_hazards.md
R153). -/

namespace Sys2Proof.Machine

/-! ### The exact count, step by step -/

theorem fieldsToBase_assoc (fps : Nat) (df : Bool) (h m s f : Nat) :
    fieldsToBase fps df h m s f = minuteBase fps df h m + s * (rateConsts fps).sf + f :=
  (Nat.add_assoc _ _ _).symm

theorem exactCount_above {fps : Nat} (hfps : fps > 30) (df : Bool) (h m s f : Nat) (fp : Bool) :
    exactCount fps df h m s f fp = fieldsToBase fps df h m s f * 2 + fp.toNat :=
  if_pos hfps

theorem exactCount_below {fps : Nat} (hfps : fps ≤ 30) (df : Bool) (h m s f : Nat) (fp : Bool) :
    exactCount fps df h m s f fp = fieldsToBase fps df h m s f :=
  if_neg hfps.not_gt

theorem exactCount_congr {fps : Nat} {df : Bool} {h m s f h' m' s' f' : Nat}
    (hbase : fieldsToBase fps df h m s f = fieldsToBase fps df h' m' s' f') (fp : Bool) :
    exactCount fps df h m s f fp = exactCount fps df h' m' s' f' fp := by
  rw [exactCount, exactCount, hbase]

/-- Settles O43. -/
theorem fieldsToCountFollowsTheAlgorithm : Obligations.FieldsToCountFollowsTheAlgorithm := by
  intro fps h m s f df fp
  refine ⟨minuteBase fps df h m, fieldsToBase fps df h m s f, exactCount fps df h m s f fp, rfl, ?_, rfl, rfl⟩
  exact fieldsToBase_assoc fps df h m s f

/-! ### The field-pair selector -/

/-- Settles O45: above 30 fps the count is twice the base plus the selector, and at 30 fps or below it is the base. -/
theorem fieldPairIsBitZero : Obligations.FieldPairIsBitZero := by
  intro fps df fp h m s f
  refine ⟨fun hfps => ?_, fun hfps => ?_⟩
  · rw [fieldsToCount, exactCount_above hfps, trunc32, BitVec.getLsbD_ofNat, Nat.testBit_zero,
      Nat.mul_add_mod_of_lt fp.toNat_lt]
    cases fp <;> rfl
  · rw [fieldsToCount, fieldsToCount, exactCount_below hfps, exactCount_below hfps]

/-! ### Truncation -/

/-- Steps 1 and 2 of 41_load_encode.md R81 in 32-bit arithmetic, every intermediate value truncated. -/
def fieldsToBase32 (fps : Nat) (df : Bool) (h m s f : Word32) : Word32 :=
  (if df then
      h * BitVec.ofNat 32 (rateConsts fps).dfph + BitVec.ofNat 32 (m.toNat / 10) * BitVec.ofNat 32 (rateConsts fps).dfp10
        + BitVec.ofNat 32 (m.toNat % 10) * BitVec.ofNat 32 (rateConsts fps).dfpm
    else h * BitVec.ofNat 32 (rateConsts fps).fph + m * BitVec.ofNat 32 (rateConsts fps).fpm)
    + s * BitVec.ofNat 32 (rateConsts fps).sf + f

/-- Truncation commutes with the sums and products of the base. -/
theorem trunc32_fieldsToBase (fps : Nat) (df : Bool) (h m s f : Word32) :
    trunc32 (fieldsToBase fps df h.toNat m.toNat s.toNat f.toNat) = fieldsToBase32 fps df h m s f := by
  rw [fieldsToBase_assoc]
  cases df <;> simp [trunc32, minuteBase, fieldsToBase32, BitVec.ofNat_add, BitVec.ofNat_mul]

theorem fieldsToCount_eq_fieldsToBase32 (fps : Nat) (df fp : Bool) (h m s f : Word32) :
    fieldsToCount fps df h.toNat m.toNat s.toNat f.toNat fp =
      if fps > 30 then fieldsToBase32 fps df h m s f * 2 + BitVec.ofNat 32 fp.toNat
      else fieldsToBase32 fps df h m s f := by
  rw [← trunc32_fieldsToBase, fieldsToCount]
  split_ifs with hfps
  · rw [exactCount_above hfps, trunc32, BitVec.ofNat_add, BitVec.ofNat_mul]
    rfl
  · rw [exactCount_below (Nat.not_lt.mp hfps)]

/-- Drop-frame only takes frames away. -/
theorem minuteBase_le_nonDrop {fps : Nat} (hsf : 1 ≤ (rateConsts fps).sf) (df : Bool) (h m : Nat) :
    minuteBase fps df h m ≤ minuteBase fps false h m := by
  have htwo := rateConsts_dfpm_add_two hsf
  have hdfp10 := rateConsts_dfp10 fps
  have hdfph := rateConsts_dfph fps
  have hfph := rateConsts_fph fps
  cases df with
  | false => exact le_rfl
  | true =>
    calc h * (rateConsts fps).dfph + m / 10 * (rateConsts fps).dfp10 + m % 10 * (rateConsts fps).dfpm
        ≤ h * (rateConsts fps).fph + m / 10 * (10 * (rateConsts fps).fpm) + m % 10 * (rateConsts fps).fpm := by
          gcongr <;> omega
      _ = h * (rateConsts fps).fph + (m / 10 * 10 + m % 10) * (rateConsts fps).fpm := by ring
      _ = h * (rateConsts fps).fph + m * (rateConsts fps).fpm := by rw [Nat.div_add_mod']

/-- Where a second and a frame in their ranges stand in a minute. -/
theorem secondFrame_lt {fps s f : Nat} (hs : s < 60) (hf : f < (rateConsts fps).sf) :
    s * (rateConsts fps).sf + f < (rateConsts fps).fpm :=
  calc s * (rateConsts fps).sf + f
      < s * (rateConsts fps).sf + (rateConsts fps).sf := Nat.add_lt_add_left hf _
    _ = (s + 1) * (rateConsts fps).sf := (Nat.succ_mul _ _).symm
    _ ≤ 60 * (rateConsts fps).sf := Nat.mul_le_mul_right _ hs
    _ = (rateConsts fps).fpm := Nat.mul_comm _ _

/-- The base of a valid label lies below the next full hour of the non-drop-frame count. -/
theorem fieldsToBase_lt {fps : Nat} {df : Bool} {m s f : Nat} (h : Nat) (hvalid : ValidLabel fps df m s f) :
    fieldsToBase fps df h m s f < (h + 1) * 3600 * (rateConsts fps).sf := by
  obtain ⟨hm, hs, hf, -⟩ := hvalid
  have hminute := minuteBase_le_nonDrop (Nat.one_le_of_lt hf) df h m
  calc fieldsToBase fps df h m s f
      < minuteBase fps false h m + (rateConsts fps).fpm :=
        Nat.add_lt_add_of_le_of_lt hminute (secondFrame_lt hs hf)
    _ = (h * 3600 + (m + 1) * 60) * (rateConsts fps).sf := by
        simp only [minuteBase, Bool.false_eq_true, if_false, rateConsts_fph, rateConsts_fpm]
        ring
    _ ≤ (h + 1) * 3600 * (rateConsts fps).sf := Nat.mul_le_mul_right _ (by omega)

/-- A day of valid labels fits 32 bits up to 49711 fps: there `2 * 24 * 3600 * sf` is still below 2^32. -/
theorem exactCount_lt {fps : Nat} {df : Bool} {h m s f : Nat} (fp : Bool) (hmax : fps ≤ 49711) (hh : h < 24)
    (hvalid : ValidLabel fps df m s f) : exactCount fps df h m s f fp < 2 ^ 32 := by
  have hday : fieldsToBase fps df h m s f < 24 * 3600 * scaledFps fps :=
    (fieldsToBase_lt h hvalid).trans_le (Nat.mul_le_mul_right _ (Nat.mul_le_mul_right _ hh))
  have hfp := fp.toNat_le
  unfold scaledFps at hday
  by_cases hfps : fps > 30
  · rw [if_neg (by omega)] at hday
    rw [exactCount_above hfps]
    omega
  · rw [if_pos (by omega)] at hday
    rw [exactCount_below (by omega)]
    omega

/-- Settles O44. -/
theorem truncationMayComeAtAnyPoint : Obligations.TruncationMayComeAtAnyPoint :=
  ⟨fun _ _ _ _ _ _ _ => BitVec.toNat_ofNat _ _,
    fun fps df fp h m s f => ⟨fieldsToBase32 fps df h m s f, rfl, fieldsToCount_eq_fieldsToBase32 fps df fp h m s f⟩,
    fun _ _ fp _ _ _ _ _ hmax hh hvalid => exactCount_lt fp hmax hh hvalid, by decide⟩

/-! ### Valid labels decode to themselves -/

theorem countToBase_exactCount (fps : Nat) (df : Bool) (h m s f : Nat) (fp : Bool) :
    countToBase fps (exactCount fps df h m s f fp) = fieldsToBase fps df h m s f := by
  have hfp := fp.toNat_le
  unfold countToBase
  split_ifs with hfps
  · rw [exactCount_above hfps]
    omega
  · exact exactCount_below (Nat.not_lt.mp hfps) df h m s f fp

/-- A label that is not missing starts no earlier than its minute's first frame. -/
theorem ValidLabel.firstFrame_le {fps : Nat} {df : Bool} {m s f : Nat} (hvalid : ValidLabel fps df m s f) :
    firstFrame df m ≤ s * (rateConsts fps).sf + f := by
  obtain ⟨-, -, -, hshown⟩ := hvalid
  unfold firstFrame
  split_ifs with hskips
  · exact Nat.not_lt.mp fun hlt => hshown ⟨hskips.1, hskips.2, hlt⟩
  · exact Nat.zero_le _

theorem baseToLabel_fieldsToBase {fps : Nat} {df : Bool} {m s f : Nat} (h : Nat) (hvalid : ValidLabel fps df m s f) :
    baseToLabel fps df (fieldsToBase fps df h m s f) = ⟨h, m, s, f⟩ := by
  have hfirst := hvalid.firstFrame_le
  obtain ⟨hm, hs, hf, -⟩ := hvalid
  rw [fieldsToBase_eq_minuteBase, baseToLabel_minute (Nat.one_le_of_lt hf) df h hm hfirst (secondFrame_lt hs hf),
    mul_add_div_of_lt s hf, Nat.mul_add_mod_of_lt hf]

/-- A count that does not wrap decodes to the label of its base (42_decode.md R97). -/
theorem countToFields_fieldsToCount {fps : Nat} {df : Bool} {h m s f : Nat} {fp : Bool}
    (hvalid : ValidLabel fps df m s f) (hfits : exactCount fps df h m s f fp < 2 ^ 32) :
    countToFields fps df (fieldsToCount fps df h m s f fp).toNat = ⟨h, m, s, f⟩ := by
  rw [fieldsToCount, trunc32_toNat hfits, countToFields_eq_baseToLabel, countToBase_exactCount,
    baseToLabel_fieldsToBase h hvalid]

/-! ### Missing labels -/

section Missing
variable {fps m s f : Nat}

/-- The label whose count a missing label has: two frames before the end of the minute before, and `f` on. -/
theorem MissingLabel.shownLabel_valid (hmissing : MissingLabel fps true m s f) (hsf : 2 ≤ (rateConsts fps).sf)
    (hm : m < 60) :
    ValidLabel fps true (m - 1) 59 ((rateConsts fps).sf - 2 + f) := by
  obtain ⟨-, -, hplace⟩ := hmissing
  refine ⟨by omega, by decide, by omega, fun ⟨_, _, hlt⟩ => ?_⟩
  omega

/-- With two frames in a second, a missing label lies in second 0. -/
theorem MissingLabel.second_zero (hmissing : MissingLabel fps true m s f) (hsf : 2 ≤ (rateConsts fps).sf) :
    s = 0 ∧ f < 2 := by
  obtain ⟨-, -, hplace⟩ := hmissing
  refine ⟨?_, by omega⟩
  by_contra hs
  have : 1 * (rateConsts fps).sf ≤ s * (rateConsts fps).sf := Nat.mul_le_mul_right _ (by omega)
  omega

/-- A short minute starts where the minute before ends, less the two frames it does not have. -/
theorem MissingLabel.fieldsToBase_eq (h : Nat) (hmissing : MissingLabel fps true m s f) (hsf : 2 ≤ (rateConsts fps).sf) :
    fieldsToBase fps true h m s f = fieldsToBase fps true h (m - 1) 59 ((rateConsts fps).sf - 2 + f) := by
  obtain ⟨rfl, -⟩ := hmissing.second_zero hsf
  obtain ⟨-, hten, -⟩ := hmissing
  have hnext := minuteBase_next (Nat.one_le_of_lt hsf) true h (m - 1)
  rw [show m - 1 + 1 = m by omega, firstFrame_drop hten, rateConsts_fpm] at hnext
  rw [fieldsToBase_eq_minuteBase, fieldsToBase_eq_minuteBase]
  omega

end Missing

/-- Settles O46: the two frames that a short minute does not have are the last two of the minute before. -/
theorem missingLabelAliasesAnEarlierFrame : Obligations.MissingLabelAliasesAnEarlierFrame := by
  refine ⟨fun fps h m s f _ _ _ => ?_, fun fps h m s f _ _ hmissing hsf => ?_,
    fun fps h m s f fp _ _ hmissing hsf hm hfits => ?_⟩
  · rw [fieldsToBase_eq_minuteBase, fieldsToBase_eq_minuteBase, Nat.div_add_mod']
    omega
  · obtain ⟨hs, hf⟩ := hmissing.second_zero hsf
    exact ⟨hs, hf, hmissing.fieldsToBase_eq h hsf⟩
  · have hcount := exactCount_congr (hmissing.fieldsToBase_eq h hsf) fp
    rw [fieldsToCount, hcount]
    exact countToFields_fieldsToCount (hmissing.shownLabel_valid hsf hm) (hcount ▸ hfits)

/-! ### LOAD -/

/-- The field mark of a new timecode: the field pair, above 30 fps (41_load_encode.md R84). -/
theorem fieldMarkOf_fieldsToCount (fps : Word16) (df : Bool) (h m s f : Nat) (fp : Bool) :
    fieldMarkOf fps (fieldsToCount fps.toNat df h m s f fp) = (decide (fps.toNat > 30) && fp) := by
  unfold fieldMarkOf
  by_cases hfps : fps.toNat > 30
  · rw [(fieldPairIsBitZero fps.toNat df fp h m s f).1 hfps]
  · rw [decide_eq_false hfps, Bool.false_and, Bool.false_and]

/-- A word of LOAD's opcode: bits 7 and 6 clear, or an illegal word (30_encoding.md R51, R57). -/
theorem perform_load {r : Request} (hop : opcode r.cmd = 0x1) (s : State) :
    perform r s = if r.cmd.extractLsb' 6 2 = 0 then
        exec (.load (fieldDF r.cmd) (fieldFP r.cmd) r.operands.fpsIn r.operands.hIn r.operands.mIn r.operands.sIn
          r.operands.fIn) s
      else .next (s.finish .illegal .zero) := by
  have hlegal := legal_formatL hop
  split_ifs with hword
  · exact perform_legal s ((InRow.load hop).decodes (hlegal.trans (decide_eq_true hword)))
  · exact perform_illegal_word (hlegal.trans (decide_eq_false hword)) s

/-- Settles O36. -/
theorem loadConstructsATimecode : Obligations.LoadConstructsATimecode := by
  refine ⟨fun s df fp fps h m sec f hfps => execLoad_configures hfps df fp h m sec f s,
    fun s df fp h m sec f => execLoad_eq df fp 0 h m sec f s, fun s df fp fps h m sec f hfps => ?_,
    fun r s hop => perform_load hop s, fun s => ?_⟩
  · exact ⟨_, execLoad_configures hfps df fp h m sec f s, fieldMarkOf_fieldsToCount fps df _ _ _ _ fp⟩
  · have hcount : fieldsToCount 30 true 10 11 12 13 false = 1099073 := by decide
    exact ⟨_, execLoad_configures (by decide) true false 10 11 12 13 s, hcount, rfl, rfl, rfl, rfl⟩

/-! ### The user bits around a LOAD -/

/-- The encoding of any command, the two without a legal word among them, has the effect of that command. -/
theorem perform_encode_effect (i : Instr) (s : State) : ∃ t, perform (encode i) s = .next t ∧ CommandEffect i s t := by
  by_cases hc : legal (encode i).cmd = true
  · rw [perform_legal s ((inRow_encode i).decodes hc)]
    exact exec_effect i s
  · exact ⟨_, perform_illegal_word (Bool.eq_false_of_not_eq_true hc) s, .fails i s nofun⟩

/-- The commands that leave USERBITS alone (45_access.md R124). -/
abbrev KeepsUserBits (i : Instr) : Prop :=
  (∀ v, i ≠ .wrub v) ∧ ∀ df fp fps h m s f, i ≠ .load df fp fps h m s f

theorem CommandEffect.userBits_eq {i : Instr} {s t : State} (heffect : CommandEffect i s t) (hkeeps : KeepsUserBits i) :
    t.userBits = s.userBits := by
  obtain ⟨hwrub, hload⟩ := hkeeps
  cases heffect with
  | fails | reads | counts => rfl
  | loads => exact absurd rfl (hload _ _ _ _ _ _ _)
  | writesUserBits => exact absurd rfl (hwrub _)

theorem performAll_userBits_eq (is : List Instr) (hkeeps : ∀ i ∈ is, KeepsUserBits i) (s : State) :
    ∃ t, performAll (is.map encode) s = .next t ∧ t.userBits = s.userBits := by
  induction is generalizing s with
  | nil => exact ⟨s, rfl, rfl⟩
  | cons i is ih =>
    obtain ⟨hi, his⟩ := List.forall_mem_cons.mp hkeeps
    obtain ⟨t, ht, heffect⟩ := perform_encode_effect i s
    obtain ⟨u, hu, hbits⟩ := ih his t
    exact ⟨u, (performAll_cons (is.map encode) ht).trans hu, hbits.trans (heffect.userBits_eq hi)⟩

theorem perform_encode_wrub (u : Word32) (s : State) :
    perform (encode (.wrub u)) s = .next ((s.setUserBits u).finish .ok .zero) :=
  perform_encode rfl s

/-- Settles O60: a LOAD that succeeds clears the user bits; after WRUB no command but those two writes them. -/
theorem userBitsBelongAfterLoad : Obligations.UserBitsBelongAfterLoad := by
  refine ⟨fun s u df fp fps h m sec f hfps => ?_, fun s u df fp fps h m sec f is hkeeps => ?_⟩
  · have hload := (perform_encode (i := .load df fp fps h m sec f) rfl _).trans
      (execLoad_configures hfps df fp h m sec f ((s.setUserBits u).finish .ok .zero))
    exact ⟨_, (performAll_cons _ (perform_encode_wrub u s)).trans (performAll_cons [] hload), rfl⟩
  · obtain ⟨loaded, hload, -⟩ := perform_encode_effect (.load df fp fps h m sec f) s
    obtain ⟨t, ht, hbits⟩ := performAll_userBits_eq is hkeeps ((loaded.setUserBits u).finish .ok .zero)
    exact ⟨t, (performAll_cons _ hload).trans ((performAll_cons _ (perform_encode_wrub u loaded)).trans ht), hbits⟩

end Sys2Proof.Machine
end

section
/-! PROOFS of family 42_decode: the label of a count (42_decode.md R91 to R99), and DECODE and RDFLAGS, which return it with
the flags (R100 to R102). -/

namespace Sys2Proof.Machine

/-! ### The two paths as the spec writes them -/

/-- Settles O47. -/
theorem nonDropFieldsFollowTheAlgorithm : Obligations.NonDropFieldsFollowTheAlgorithm := fun fps cnt _ _ =>
  ⟨countToBase fps cnt, countToBase fps cnt / (rateConsts fps).sf, countToBase fps cnt / (rateConsts fps).sf / 60,
    rfl, rfl, rfl, rfl⟩

/-- Settles O48: the second test of R93 is the one of the short minute. -/
theorem dropFieldsFollowTheAlgorithm : Obligations.DropFieldsFollowTheAlgorithm := by
  intro fps cnt _ _
  refine ⟨countToBase fps cnt, _, _, _, _, _, _, rfl, rfl, rfl, rfl, rfl, rfl, rfl, ?_⟩
  show baseToDropFields fps (countToBase fps cnt) = _
  rw [baseToDropFields, decadeFields, shortMinuteFields]

/-- Settles O49. -/
theorem shortMinuteHasOneFormula : Obligations.ShortMinuteHasOneFormula := fun sf h m r _ =>
  shortMinuteFields_eq sf h m r

/-! ### Hours -/

/-- The number of bases an hour has. -/
def hourLength (fps : Nat) (df : Bool) : Nat := if df then (rateConsts fps).dfph else (rateConsts fps).fph

theorem decadeFields_h (fps h major r : Nat) : (decadeFields fps h major r).h = h := by
  rw [decadeFields, shortMinuteFields_eq]
  split <;> rfl

/-- Hours are the base over the length of an hour, with no bound (42_decode.md R99). -/
theorem baseToLabel_h (fps : Nat) (df : Bool) (base : Nat) :
    (baseToLabel fps df base).h = base / hourLength fps df := by
  cases df with
  | false =>
    calc base / (rateConsts fps).sf / 60 / 60
      _ = base / ((rateConsts fps).sf * 60 * 60) := by
        rw [Nat.div_div_eq_div_mul, Nat.div_div_eq_div_mul, Nat.mul_assoc]
      _ = base / (rateConsts fps).fph := by rw [rateConsts_fph, rateConsts_fpm]
  | true => exact decadeFields_h fps _ _ _

theorem minuteBase_zero (fps : Nat) (df : Bool) (h : Nat) : minuteBase fps df h 0 = h * hourLength fps df := by
  cases df <;> simp [minuteBase, hourLength]

/-- Settles O53: a base of whole hours stands at the first frame of minute 0. -/
theorem hoursNeverWrap : Obligations.HoursNeverWrap := by
  intro fps cnt df hpos _
  refine ⟨baseToLabel_h fps df _, fun hours hbase => ?_⟩
  have hsf := rateConsts_sf_pos hpos
  have hwhole : countToBase fps cnt = minuteBase fps df hours 0 + 0 := hbase.trans (minuteBase_zero fps df hours).symm
  rw [countToFields_eq_baseToLabel, hwhole, baseToLabel_minute hsf df hours (by decide) (firstFrame_tenth df rfl).le
    (Nat.mul_pos hsf (by decide)), Nat.zero_div, Nat.zero_mod]

/-! ### The ranges of the fields -/

/-- A base decodes to a valid label (42_decode.md R96): it stands in a minute, no earlier than its first frame. -/
theorem baseToLabel_valid {fps : Nat} (hsf : 1 ≤ (rateConsts fps).sf) (df : Bool) (base : Nat) :
    ValidLabel fps df (baseToLabel fps df base).m (baseToLabel fps df base).s (baseToLabel fps df base).f := by
  obtain ⟨h, m, x, hm, hfirst, hx, rfl⟩ := exists_minute hsf df base
  rw [baseToLabel_minute hsf df h hm hfirst hx]
  refine ⟨hm, Nat.div_lt_of_lt_mul hx, Nat.mod_lt x hsf, ?_⟩
  rintro ⟨rfl, hten, hlt⟩
  rw [Nat.div_add_mod'] at hlt
  rw [firstFrame_drop hten] at hfirst
  omega

/-- The shortest hour is that of one frame a second in drop-frame. -/
theorem le_hourLength {fps : Nat} (hsf : 1 ≤ (rateConsts fps).sf) (df : Bool) : 3492 ≤ hourLength fps df := by
  cases df with
  | false =>
    show 3492 ≤ (rateConsts fps).fph
    rw [rateConsts_fph, rateConsts_fpm]
    omega
  | true =>
    show 3492 ≤ (rateConsts fps).dfph
    rw [rateConsts_dfph_closed hsf]
    omega

theorem countToFields_h_le {fps cnt : Nat} (hsf : 1 ≤ (rateConsts fps).sf) (df : Bool) (hcnt : cnt < 2 ^ 32) :
    (countToFields fps df cnt).h ≤ 1229944 :=
  calc (countToFields fps df cnt).h
      = countToBase fps cnt / hourLength fps df := baseToLabel_h fps df _
    _ ≤ (2 ^ 32 - 1) / 3492 :=
      Nat.div_le_div ((countToBase_le fps cnt).trans (Nat.le_sub_one_of_lt hcnt)) (le_hourLength hsf df) (by decide)
    _ = 1229944 := by decide

/-- Settles O50. -/
theorem decodedFieldsAreInRange : Obligations.DecodedFieldsAreInRange := by
  refine ⟨fun fps df c hpos _ => ?_, by decide, by decide⟩
  have hsf := rateConsts_sf_pos hpos
  obtain ⟨hm, hs, hf, hshown⟩ := baseToLabel_valid hsf df (countToBase fps c.toNat)
  exact ⟨Nat.le_of_lt_succ hm, Nat.le_of_lt_succ hs, hf, countToFields_h_le hsf df c.isLt, hshown⟩

/-! ### The round trips -/

/-- Settles O51. -/
theorem validLabelRoundTrip : Obligations.ValidLabelRoundTrip := fun _ _ _ _ _ _ _ _ _ hvalid hfits =>
  countToFields_fieldsToCount hvalid hfits

/-- Settles O52: encoding is a left inverse of decoding, on counts and on bases. -/
theorem countRoundTrip : Obligations.CountRoundTrip := by
  refine ⟨fun fps df c hpos _ => exactCount_countToFields (rateConsts_sf_pos hpos) df c.toNat,
    fun fps df c d hpos _ hlabel => ?_⟩
  have hinverse := fieldsToBase_baseToLabel (rateConsts_sf_pos hpos) df
  calc countToBase fps c.toNat
      = fieldsToBase fps df (countToFields fps df c.toNat).h (countToFields fps df c.toNat).m
          (countToFields fps df c.toNat).s (countToFields fps df c.toNat).f := (hinverse _).symm
    _ = countToBase fps d.toNat := by
      rw [hlabel]
      exact hinverse _

/-! ### DECODE -/

/-- A word of a format N opcode: the command with no format bit set, else an illegal word (30_encoding.md R51, R57). -/
theorem perform_formatN {r : Request} {i : Instr} (hrow : decodeRequest r = decodeFormatN i r.cmd) (s : State) :
    perform r s = if formatBits r.cmd = 0 then exec i s else .next (s.finish .illegal .zero) := by
  split_ifs with hzero
  · exact perform_legal s (hrow.trans (decodeFormatN_zero hzero))
  · exact perform_illegal s (hrow.trans (decodeFormatN_set hzero))

theorem exec_decode_configured {s : State} (hfps : s.fps ≠ 0) : exec .decode s = .next (s.finish .ok s.fields.results) :=
  guardRate_configured hfps

/-- The ranges of R96 make the results of DECODE exact (42_decode.md R100). -/
theorem State.fields_results_toNat {s : State} (hfps : s.fps ≠ 0) :
    s.fields.results.r0.toNat = s.fields.h ∧ s.fields.results.r1.toNat = s.fields.m ∧
      s.fields.results.r2.toNat = s.fields.s ∧ s.fields.results.r3.toNat = s.fields.f := by
  have hmax : s.fps.toNat ≤ 65535 := Nat.le_of_lt_succ s.fps.isLt
  have hsf := rateConsts_sf_le hmax
  obtain ⟨hm, hs, hf, hh, -⟩ : s.fields.m ≤ 59 ∧ s.fields.s ≤ 59 ∧ s.fields.f < (rateConsts s.fps.toNat).sf ∧
      s.fields.h ≤ 1229944 ∧ _ := decodedFieldsAreInRange.1 s.fps.toNat s.drop s.counter (fps_toNat_pos hfps) hmax
  exact ⟨trunc32_toNat (by omega), trunc32_toNat (by omega), trunc32_toNat (by omega), trunc32_toNat (by omega)⟩

/-- The second field of a frame shows the label of the first (42_decode.md R100). -/
theorem State.fields_secondField {s : State} (hfps : s.fps.toNat > 30) (hfirst : s.counter.getLsbD 0 = false) :
    (s.setCounter (s.counter + 1)).fields = s.fields := by
  have heven : s.counter.toNat % 2 = 0 := by
    rw [BitVec.getLsbD, Nat.testBit_zero, decide_eq_false_iff_not] at hfirst
    omega
  have hnext : (s.counter + 1).toNat = s.counter.toNat + 1 := by
    have hlt := s.counter.isLt
    exact (congrArg BitVec.toNat (trunc32_toNat_add s.counter 1)).symm.trans (trunc32_toNat (by omega))
  show countToFields s.fps.toNat s.drop (s.counter + 1).toNat = countToFields s.fps.toNat s.drop s.counter.toNat
  rw [hnext, countToFields_eq_baseToLabel, countToBase_succ, if_pos ⟨hfps, heven⟩, countToFields_eq_baseToLabel]

/-- Settles O37. -/
theorem decodeReturnsTheFields : Obligations.DecodeReturnsTheFields := by
  refine ⟨fun s hfps => exec_decode_configured hfps, fun s hfps => ?_, fun s hfps => guardRate_unconfigured hfps,
    fun r s hop => perform_formatN (decodeRequest_decode hop) s, fun s hfps hfirst => s.fields_secondField hfps hfirst,
    fun s hfps hdrop hcounter => ?_⟩
  · exact ⟨_, exec_decode_configured hfps, s.fields_results_toNat hfps⟩
  · have hresults : s.fields.results = ⟨0, 1, 0, 2⟩ := by
      rw [State.fields, hfps, hdrop, hcounter]
      decide
    rw [exec_decode_configured (by rw [hfps]; decide), hresults]
    rfl

/-! ### RDFLAGS and the field mark -/

/-- The flags word as a number: `isDropFrame` counts one and `fieldMark` two (42_decode.md R101). -/
theorem flagsWord_eq (mark drop : Bool) : flagsWord mark drop = BitVec.ofNat 32 (2 * mark.toNat + drop.toNat) := by
  revert mark drop
  decide

theorem exec_rdflags_configured {s : State} (hfps : s.fps ≠ 0) :
    exec .rdflags s = .next (s.finish .ok (.single (flagsWord s.fieldMark s.drop))) :=
  guardRate_configured hfps

theorem State.fieldMark_iff (s : State) : s.fieldMark = true ↔ s.fps.toNat > 30 ∧ s.counter.toNat % 2 = 1 := by
  rw [s.fieldMark_eq, Bool.and_eq_true, decide_eq_true_iff, decide_eq_true_iff]

theorem State.fieldMark_above {s : State} (hfps : s.fps.toNat > 30) :
    s.fieldMark = decide (s.counter.toNat % 2 = 1) := by
  rw [s.fieldMark_eq, decide_eq_true hfps, Bool.true_and]

/-- A LOAD above 30 fps, then RDFLAGS: the field pair and the drop-frame flag come back. -/
theorem performAll_load_rdflags {fps : Word16} (hfps : fps.toNat > 30) (df fp : Bool) (h m sec f : Word32) (s : State) :
    ∃ t, performAll [encode (.load df fp fps h m sec f), encode .rdflags] s = .next t ∧
      t.res = .single (flagsWord fp df) := by
  have hne : fps ≠ 0 := by
    rintro rfl
    exact absurd hfps (by decide)
  have hload := (perform_encode (i := .load df fp fps h m sec f) rfl s).trans
    (execLoad_configures hne df fp h m sec f s)
  have hmark := fieldMarkOf_fieldsToCount fps df h.toNat m.toNat sec.toNat f.toNat fp
  rw [decide_eq_true hfps, Bool.true_and] at hmark
  refine ⟨_, (performAll_cons _ hload).trans (performAll_cons [] ((perform_encode rfl _).trans
    (exec_rdflags_configured hne))), ?_⟩
  exact congrArg (fun mark => Results.single (flagsWord mark df)) hmark

/-- Settles O39. -/
theorem rdflagsReturnsTheFlags : Obligations.RdflagsReturnsTheFlags := by
  refine ⟨fun s hfps => ?_, State.fieldMark_iff, fun s hfps => guardRate_unconfigured hfps,
    fun r s hop => perform_formatN (decodeRequest_rdflags hop) s, fun s => ?_⟩
  · rw [exec_rdflags_configured hfps, flagsWord_eq]
    rfl
  · exact performAll_load_rdflags (by decide) true true 10 11 12 13 s

/-- Above 30 fps the field mark is the parity of the number written to the counter, 2^32 being even. -/
theorem State.fieldMark_setCounter {s : State} (hfps : s.fps.toNat > 30) (n : Nat) :
    (s.setCounter (trunc32 n)).fieldMark = decide (n % 2 = 1) := by
  have hparity : (trunc32 n).toNat % 2 = n % 2 := Nat.mod_mod_of_dvd n (by decide)
  have hmark : (s.setCounter (trunc32 n)).fieldMark = decide ((trunc32 n).toNat % 2 = 1) := State.fieldMark_above hfps
  rw [hmark, hparity]

/-- Settles O56: the next number has the other parity, also at the wrap. -/
theorem fieldMarkAlternates : Obligations.FieldMarkAlternates := by
  intro s hfps
  have hne : s.fps ≠ 0 := fun h => absurd hfps (by rw [h]; decide)
  refine ⟨s.fieldMark_above hfps, _, exec_incr_configured hne, ?_⟩
  calc (s.setCounter (trunc32 (s.counter.toNat + 1))).fieldMark
      = decide ((s.counter.toNat + 1) % 2 = 1) := s.fieldMark_setCounter hfps _
    _ = !decide (s.counter.toNat % 2 = 1) := by
      rw [← decide_not, decide_eq_decide]
      omega
    _ = !s.fieldMark := by rw [s.fieldMark_above hfps]

end Sys2Proof.Machine
end

section
/-! PROOFS of family 43_increment: INCR (43_increment.md R105, R106), and `n` of them against one LOAD (R108). -/

namespace Sys2Proof.Machine

/-! ### One INCR -/

theorem exec_incr_advances {s : State} (hfps : s.fps ≠ 0) : exec .incr s = .next (s.advanced 1) := by
  rw [← perform_encode rfl, perform_incr_configured hfps]

/-- Settles O35: the wrap is that of the 32-bit sum. -/
theorem incrAdvancesTheCounter : Obligations.IncrAdvancesTheCounter := by
  refine ⟨fun s hfps => exec_incr_advances hfps, fun s hfps hcounter => ?_, fun s hfps => guardRate_unconfigured hfps,
    fun r s hop => perform_formatN (decodeRequest_incr hop) s, fun s t _ => rfl, fun s hfps hdrop hcounter => ?_⟩
  · have hwrap : s.counter + BitVec.ofNat 32 1 = 0 := by
      rw [hcounter]
      decide
    rw [exec_incr_advances hfps, State.advanced, hwrap]
    rfl
  · have hnext : s.counter + BitVec.ofNat 32 1 = 1800 := by
      rw [hcounter]
      decide
    have hfields : (s.advanced 1).fields = ⟨0, 1, 0, 2⟩ := by
      show countToFields s.fps.toNat s.drop (s.counter + BitVec.ofNat 32 1).toNat = ⟨0, 1, 0, 2⟩
      rw [hfps, hdrop, hnext]
      decide
    exact ⟨_, exec_incr_advances (by rw [hfps]; decide), hnext, hfields⟩

/-! ### `n` of them and one LOAD -/

/-- ADVANCE `n`, for `n = 0` too, on the registers of the timecode. -/
theorem performAll_advance_timecode (n : Nat) {s : State} (hfps : s.fps ≠ 0) :
    ∃ t, performAll ((Instr.advance n).map encode) s = .next t ∧ t.fps = s.fps ∧ t.drop = s.drop ∧
      t.counter = s.counter + BitVec.ofNat 32 n := by
  cases n with
  | zero => exact ⟨s, rfl, rfl, rfl, (BitVec.add_zero s.counter).symm⟩
  | succ n => exact ⟨_, performAll_advance n hfps, rfl, rfl, rfl⟩

/-- The timecode registers determine the decoded fields (42_decode.md R90). -/
theorem State.fields_congr {s t : State} (hfps : s.fps = t.fps) (hdrop : s.drop = t.drop)
    (hcounter : s.counter = t.counter) : s.fields = t.fields := by
  rw [State.fields, State.fields, hfps, hdrop, hcounter]

/-- The rate and the counter determine the field mark (10_state.md R28). -/
theorem State.fieldMark_congr {s t : State} (hfps : s.fps = t.fps) (hcounter : s.counter = t.counter) :
    s.fieldMark = t.fieldMark := by
  rw [State.fieldMark, State.fieldMark, hfps, hcounter]

/-- Settles O57: both leave COUNTER + n under the rate and the flag of `s`. That the sum stays below 2^32 is not needed, the
counter and the encoding being truncated alike. -/
theorem incrementsEqualOneLoad : Obligations.IncrementsEqualOneLoad := by
  intro s n h m sec f fp hfps _ hcount
  obtain ⟨t, ht, htfps, htdrop, htcounter⟩ := performAll_advance_timecode n hfps
  have hcounter : t.counter = fieldsToCount s.fps.toNat s.drop h.toNat m.toNat sec.toNat f.toNat fp :=
    calc t.counter = s.counter + BitVec.ofNat 32 n := htcounter
      _ = BitVec.ofNat 32 (s.counter.toNat + n) := (trunc32_toNat_add s.counter n).symm
      _ = _ := hcount.symm
  exact ⟨t, _, ht, execLoad_configures hfps s.drop fp h m sec f s, htfps, htdrop, hcounter,
    State.fields_congr htfps htdrop hcounter, State.fieldMark_congr htfps hcounter⟩

end Sys2Proof.Machine
end

section
/-! PROOFS of family 44_bcd: the places of the digits in the BCD word (44_bcd.md R110 to R112), and TOBCD, which returns it
for the decoded fields (R113, R114). -/

namespace Sys2Proof.Machine

/-! ### The digits of one field -/

theorem bcdDigits_tens (v : Nat) : (bcdDigits v).extractLsb' 4 4 = BitVec.ofNat 4 (v / 10) :=
  BitVec.extractLsb'_append_eq_left

theorem bcdDigits_units (v : Nat) : (bcdDigits v).extractLsb' 0 4 = BitVec.ofNat 4 (v % 10) :=
  BitVec.extractLsb'_append_eq_right

/-- The two digits as a number: the tens are truncated to a nibble, the units always fit one (44_bcd.md R111). -/
theorem bcdDigits_toNat (v : Nat) : (bcdDigits v).toNat = 16 * (v / 10 % 16) + v % 10 := by
  have hunits : v % 10 % 2 ^ 4 = v % 10 := by omega
  rw [bcdDigits, trunc4, trunc4, BitVec.toNat_append, BitVec.toNat_ofNat, BitVec.toNat_ofNat, hunits,
    ← Nat.shiftLeft_add_eq_or_of_lt (by omega), Nat.shiftLeft_eq, Nat.mul_comm]

/-- The digits repeat every 160: sixteen tens, and a whole number of units (44_bcd.md R112). -/
theorem bcdDigits_mod (v : Nat) : bcdDigits (v % 160) = bcdDigits v := by
  refine BitVec.eq_of_toNat_eq ?_
  rw [bcdDigits_toNat, bcdDigits_toNat, Nat.mod_mul_right_div_self v 10 16, Nat.mod_mod,
    Nat.mod_mul_right_mod v 10 16]

/-! ### The bytes of the word -/

section Bytes
variable (t : Fields) (i : Nat)

theorem toBcd_hours : (toBcd t).extractLsb' (i + 24) 4 = (bcdDigits t.h).extractLsb' i 4 := by
  rw [toBcd, BitVec.extractLsb'_append_eq_of_le (by omega), BitVec.extractLsb'_append_eq_of_le (by omega),
    BitVec.extractLsb'_append_eq_of_le (by omega)]
  rfl

variable {i} (hi : i + 4 ≤ 8)
include hi

theorem toBcd_minutes : (toBcd t).extractLsb' (i + 16) 4 = (bcdDigits t.m).extractLsb' i 4 := by
  rw [toBcd, BitVec.extractLsb'_append_eq_of_le (by omega), BitVec.extractLsb'_append_eq_of_le (by omega)]
  exact BitVec.extractLsb'_append_eq_of_add_le hi

theorem toBcd_seconds : (toBcd t).extractLsb' (i + 8) 4 = (bcdDigits t.s).extractLsb' i 4 := by
  rw [toBcd, BitVec.extractLsb'_append_eq_of_le (by omega)]
  exact BitVec.extractLsb'_append_eq_of_add_le hi

theorem toBcd_frames : (toBcd t).extractLsb' i 4 = (bcdDigits t.f).extractLsb' i 4 :=
  BitVec.extractLsb'_append_eq_of_add_le hi

end Bytes

/-- Settles O54: a nibble of the word is a digit of its field's byte; a byte of 160 or more is that of the remainder. -/
theorem bcdWordPlacesTheDigits : Obligations.BcdWordPlacesTheDigits := by
  refine ⟨fun t => ?_, fun v hv => ?_, fun v hv => ?_⟩
  · have htens : 4 + 4 ≤ 8 := by decide
    have hunits : 0 + 4 ≤ 8 := by decide
    exact ⟨(toBcd_hours t 4).trans (bcdDigits_tens t.h), (toBcd_hours t 0).trans (bcdDigits_units t.h),
      (toBcd_minutes t htens).trans (bcdDigits_tens t.m), (toBcd_minutes t hunits).trans (bcdDigits_units t.m),
      (toBcd_seconds t htens).trans (bcdDigits_tens t.s), (toBcd_seconds t hunits).trans (bcdDigits_units t.s),
      (toBcd_frames t htens).trans (bcdDigits_tens t.f), (toBcd_frames t hunits).trans (bcdDigits_units t.f)⟩
  · have htens : v / 10 % 16 = v / 10 := by omega
    rw [bcdDigits_toNat, htens]
  · exact ⟨v % 160, by omega, by omega, (bcdDigits_mod v).symm⟩

/-! ### TOBCD -/

theorem exec_tobcd_configured {s : State} (hfps : s.fps ≠ 0) :
    exec .tobcd s = .next (s.finish .ok (.single (toBcd s.fields))) :=
  guardRate_configured hfps

/-- Settles O38: the second field of a frame gives the same word because it shows the same label. -/
theorem tobcdReturnsTheBcdWord : Obligations.TobcdReturnsTheBcdWord := by
  refine ⟨fun s hfps => exec_tobcd_configured hfps, fun s hfps => guardRate_unconfigured hfps,
    fun r s hop => perform_formatN (decodeRequest_tobcd hop) s, fun s hfps hfirst => ?_, fun s hfps hdrop hcounter => ?_⟩
  · have hne : s.fps ≠ 0 := fun h => absurd hfps (by rw [h]; decide)
    have hlabel := s.fields_secondField hfps hfirst
    exact ⟨_, _, exec_tobcd_configured hne, exec_tobcd_configured (s := s.setCounter (s.counter + 1)) hne,
      congrArg (fun t => Results.single (toBcd t)) hlabel.symm⟩
  · have hword : toBcd s.fields = 0x10111213 := by
      rw [State.fields, hfps, hdrop, hcounter]
      decide
    rw [exec_tobcd_configured (by rw [hfps]; decide), hword]
    rfl

/-! ### A LOAD, then TOBCD -/

/-- At every rate of the core 18 hours of valid labels fit 32 bits: `2 * 18 * 3600 * 32767` is still below 2^32. -/
theorem exactCount_lt_anyRate {fps : Nat} {df : Bool} {h m s f : Nat} (fp : Bool) (hmax : fps ≤ 65535) (hh : h < 18)
    (hvalid : ValidLabel fps df m s f) : exactCount fps df h m s f fp < 2 ^ 32 := by
  have hbase : fieldsToBase fps df h m s f < 18 * 3600 * 32767 :=
    (fieldsToBase_lt h hvalid).trans_le (Nat.mul_le_mul (Nat.mul_le_mul_right _ hh) (rateConsts_sf_le hmax))
  have hfp := fp.toNat_le
  by_cases hfps : fps > 30
  · rw [exactCount_above hfps]
    omega
  · rw [exactCount_below (Nat.not_lt.mp hfps)]
    omega

/-- A LOAD of a valid label of the first 18 hours, then TOBCD: the BCD word of that label, at every rate and with either
flag and field pair (44_bcd.md R114). -/
theorem performAll_load_tobcd {fps : Word16} (hfps : fps ≠ 0) {df : Bool} (fp : Bool) {h m sec f : Word32}
    (hh : h.toNat < 18) (hvalid : ValidLabel fps.toNat df m.toNat sec.toNat f.toNat) (s : State) :
    ∃ t, performAll [encode (.load df fp fps h m sec f), encode .tobcd] s = .next t ∧
      t.res = .single (toBcd ⟨h.toNat, m.toNat, sec.toNat, f.toNat⟩) ∧ t.status = .ok := by
  have hload := (perform_encode (i := .load df fp fps h m sec f) rfl s).trans
    (execLoad_configures hfps df fp h m sec f s)
  have hlabel := countToFields_fieldsToCount hvalid
    (exactCount_lt_anyRate fp (Nat.le_of_lt_succ fps.isLt) hh hvalid)
  exact ⟨_, (performAll_cons _ hload).trans (performAll_cons [] ((perform_encode rfl _).trans
    (exec_tobcd_configured hfps))), congrArg (fun t => Results.single (toBcd t)) hlabel, rfl⟩

/-- Settles O55: 10:11:12:13 is a valid label from 14 frames a second on, and 0:0:0:0 is one without drop-frame. -/
theorem sourceBcdExamplesHold : Obligations.SourceBcdExamplesHold := by
  refine ⟨fun s fps df fp hsf => ?_, fun s fps hfps => ?_⟩
  · have hfps : fps ≠ 0 := by
      rintro rfl
      exact absurd hsf (by decide)
    have hvalid : ValidLabel fps.toNat df 11 12 13 := ⟨by decide, by decide, hsf, fun ⟨_, _, hlt⟩ => by omega⟩
    exact performAll_load_tobcd hfps fp (h := 10) (by decide) hvalid s
  · have hsf := rateConsts_sf_pos (Nat.pos_of_ne_zero fun h => hfps (BitVec.eq_of_toNat_eq h))
    have hvalid : ValidLabel fps.toNat false 0 0 0 := ⟨by decide, by decide, hsf, fun ⟨hdrop, _⟩ => nomatch hdrop⟩
    exact performAll_load_tobcd hfps false (h := 0) (by decide) hvalid s

end Sys2Proof.Machine
end

section
/-! PROOFS of family 45_access: RDCNT, RDUB and WRUB (45_access.md R121 to R123), and the user bits as an opaque payload
(R124). -/

namespace Sys2Proof.Machine

/-! ### The user bits as an opaque payload -/

/-- The rate check does not read the user bits. -/
theorem guardRate_setUserBits (u : Word32) (s : State) {t v : State} (hv : v = t.setUserBits u) :
    guardRate (s.setUserBits u) v = mapNext (State.setUserBits u) (guardRate s t) := by
  subst hv
  rw [guardRate_eq, guardRate_eq, mapNext_next, apply_ite (State.setUserBits u)]
  rfl

theorem keepsUserBits_or_writes (i : Instr) :
    KeepsUserBits i ∨ (∃ u, i = .wrub u) ∨ ∃ df fp fps h m sec f, i = .load df fp fps h m sec f := by
  cases i with
  | nop | incr | decode | tobcd | rdflags | rdub | rdcnt | rdrate => exact .inl ⟨nofun, nofun⟩
  | wrub u => exact .inr (.inl ⟨u, rfl⟩)
  | load df fp fps h m sec f => exact .inr (.inr ⟨df, fp, fps, h, m, sec, f, rfl⟩)

/-- A command that neither reads nor writes the user bits carries any others through. -/
theorem exec_setUserBits {i : Instr} (hread : i ≠ .rdub) (hkeeps : KeepsUserBits i) (u : Word32) (s : State) :
    exec i (s.setUserBits u) = mapNext (State.setUserBits u) (exec i s) := by
  obtain ⟨hwrub, hload⟩ := hkeeps
  cases i with
  | nop | rdcnt => rfl
  | incr | decode | tobcd | rdflags => exact guardRate_setUserBits u s rfl
  | rdrate sel =>
    obtain ⟨code, r, hexec⟩ := exec_rdrate_finish sel s.fps
    rw [hexec s rfl, hexec (s.setUserBits u) rfl]
    rfl
  | rdub => exact absurd rfl hread
  | wrub => exact absurd rfl (hwrub _)
  | load => exact absurd rfl (hload _ _ _ _ _ _ _)

theorem exec_userBits_eq {i : Instr} {s t : State} (h : exec i s = .next t) (hkeeps : KeepsUserBits i) :
    t.userBits = s.userBits := by
  obtain ⟨v, hv, heffect⟩ := exec_effect i s
  obtain rfl : v = t := Host.Outcome.next.inj (hv.symm.trans h)
  exact heffect.userBits_eq hkeeps

/-- Settles O29: a command that keeps the user bits carries others through; WRUB and a LOAD that succeeds overwrite
them, and a LOAD that fails keeps them. -/
theorem userBitsAreOpaque : Obligations.UserBitsAreOpaque := by
  refine ⟨fun i s t ht => (keepsUserBits_or_writes i).imp_left (exec_userBits_eq ht), fun i s u hread => ?_⟩
  obtain hkeeps | ⟨ub, rfl⟩ | ⟨df, fp, fps, h, m, sec, f, rfl⟩ := keepsUserBits_or_writes i
  · obtain ⟨t, ht, heffect⟩ := exec_effect i s
    have hother : exec i (s.setUserBits u) = .next (t.setUserBits u) :=
      (exec_setUserBits hread hkeeps u s).trans (congrArg (mapNext _) ht)
    exact ⟨t, _, ht, hother, rfl, .inr ⟨heffect.userBits_eq hkeeps, rfl⟩⟩
  · exact ⟨_, _, rfl, rfl, rfl, .inl rfl⟩
  · by_cases hfps : fps = 0
    · exact ⟨_, _, if_pos hfps, if_pos hfps, rfl, .inr ⟨rfl, rfl⟩⟩
    · exact ⟨_, _, execLoad_configures hfps df fp h m sec f s,
        execLoad_configures hfps df fp h m sec f (s.setUserBits u), rfl, .inl rfl⟩

/-! ### RDCNT, RDUB and WRUB -/

theorem exec_rdcnt (s : State) : exec .rdcnt s = .next (s.finish .ok (.single s.counter)) := rfl

theorem exec_rdub (s : State) : exec .rdub s = .next (s.finish .ok (.single s.userBits)) := rfl

theorem exec_wrub (u : Word32) (s : State) : exec (.wrub u) s = .next ((s.setUserBits u).finish .ok .zero) := rfl

/-- Two commands, assembled and run one after the other. -/
theorem performAll_encode_pair {i j : Instr} (hi : WellFormed i = true) (hj : WellFormed j = true) {s t u : State}
    (ht : exec i s = .next t) (hu : exec j t = .next u) : performAll [encode i, encode j] s = .next u :=
  (performAll_cons _ ((perform_encode hi s).trans ht)).trans (performAll_cons [] ((perform_encode hj t).trans hu))

theorem State.getLsbD_counter_eq_fieldMark {s : State} (hfps : s.fps.toNat > 30) :
    s.counter.getLsbD 0 = s.fieldMark := by
  rw [State.fieldMark, fieldMarkOf, decide_eq_true hfps, Bool.true_and]

/-- Settles O32: an unconfigured core has a blank counter, and above 30 fps the field mark is the counter's bit 0. -/
theorem rdcntReturnsTheCounter : Obligations.RdcntReturnsTheCounter := by
  refine ⟨exec_rdcnt, fun s hblank hfps => ?_, fun s hfps => s.getLsbD_counter_eq_fieldMark hfps,
    fun r s hop => perform_formatN (decodeRequest_rdcnt hop) s, fun s => ?_⟩
  · obtain ⟨hcounter, -⟩ := hblank hfps
    exact (exec_rdcnt s).trans (congrArg (fun c => Host.Outcome.next (s.finish .ok (.single c))) hcounter)
  · have hcount : fieldsToCount 60 true 10 11 12 13 true = 2198147 := by decide
    exact ⟨_, performAll_encode_pair rfl rfl (execLoad_configures (by decide) true true 10 11 12 13 s) (exec_rdcnt _),
      congrArg Results.single hcount⟩

/-- Settles O33: RDUB finds the zero that a LOAD leaves and the payload that a WRUB leaves. -/
theorem rdubReturnsTheUserBits : Obligations.RdubReturnsTheUserBits := by
  refine ⟨exec_rdub, fun r s hop => perform_formatN (decodeRequest_rdub hop) s,
    fun s df fp fps h m sec f hfps => ?_, fun s u => ?_⟩
  · exact ⟨_, performAll_encode_pair rfl rfl (execLoad_configures hfps df fp h m sec f s) (exec_rdub _), rfl, rfl⟩
  · exact ⟨_, performAll_encode_pair rfl rfl (exec_wrub u s) (exec_rdub _), rfl⟩

/-- Settles O34. -/
theorem wrubStoresTheUserBits : Obligations.WrubStoresTheUserBits :=
  ⟨fun s u => exec_wrub u s, fun _ s hop => perform_formatN (decodeRequest_wrub hop) s⟩

end Sys2Proof.Machine
end

section
/-! PROOFS of family 60_exceptions: the core goes on from every state (60_exceptions.md R130), the status of every
command by cause and priority (R131, R136), and what a failed command writes (R132). -/

namespace Sys2Proof.Machine

/-! ### The core goes on -/

theorem exec_goesOn (i : Instr) (s : State) : GoesOn (exec i s) := by
  obtain ⟨t, ht, -⟩ := exec_effect i s
  exact ⟨t, ht⟩

theorem complete_goesOn (r : Request) (s : State) : GoesOn (complete r s) := by
  obtain ⟨t, -, ht, -⟩ := perform_effect r s
  exact ⟨t.respond, congrArg (mapNext State.respond) ht⟩

theorem step_goesOn (s : State) : GoesOn (step s) := by
  by_cases hreset : ∃ rest, s.host = .reset :: rest
  · obtain ⟨rest, hhost⟩ := hreset
    exact ⟨_, step_reset hhost⟩
  cases hflight : s.inFlight with
  | some flight =>
    rw [step_flight hflight (not_exists.mp hreset)]
    exact complete_goesOn flight.request s
  | none =>
    cases hhost : s.host with
    | nil => exact ⟨_, step_idle hhost hflight⟩
    | cons event rest =>
      cases event with
      | reset => exact absurd ⟨rest, hhost⟩ hreset
      | command r =>
        rw [step_command hhost hflight]
        exact complete_goesOn r (s.setHost rest)

/-- An edge without `rst` inside a flight: the completing edge, or one of those before it (10_state.md R35). -/
theorem clockEdge_flight {p : PortsIn} {s : State} {flight : Flight} (hrst : p.rst = false)
    (hflight : s.inFlight = some flight) : clockEdge p s =
      if flight.edgesLeft ≤ 1 then complete flight.request s
      else .next (s.wait flight.request (flight.edgesLeft - 1)) := by
  simp [clockEdge, hrst, hflight]

theorem clockEdge_goesOn (p : PortsIn) (s : State) : GoesOn (clockEdge p s) := by
  cases hflight : s.inFlight with
  | none =>
    obtain ⟨t, ht, -⟩ := clockEdge_no_response p hflight
    exact ⟨t, ht⟩
  | some flight =>
    cases hrst : p.rst with
    | true => exact ⟨_, clockEdge_resets s hrst⟩
    | false =>
      rw [clockEdge_flight hrst hflight]
      split
      · exact complete_goesOn flight.request s
      · exact ⟨_, rfl⟩

/-- Settles O11. -/
theorem coreNeverStops : Obligations.CoreNeverStops := ⟨exec_goesOn, step_goesOn, clockEdge_goesOn⟩

/-! ### The status of a command -/

theorem guardRate_status (s t : State) :
    ∃ u, guardRate s t = .next u ∧ u.status = if s.fps = 0 then .unconfig else t.status :=
  ⟨_, guardRate_eq s t, apply_ite State.status _ _ _⟩

theorem execLoad_status_eq (df fp : Bool) (fps : Word16) (h m sec f : Word32) (s : State) :
    ∃ t, execLoad df fp fps h m sec f s = .next t ∧ t.status = if fps = 0 then .badFps else .ok :=
  ⟨_, execLoad_eq df fp fps h m sec f s, apply_ite State.status _ _ _⟩

theorem needsRate_iff_mem (op : BitVec 4) :
    needsRate op = true ↔ op ∈ ([0x2, 0x3, 0x4, 0x5, 0x9] : List (BitVec 4)) := by
  simp [needsRate]

/-- LOAD does not need the rate, so UNCONFIG and BADFPS have no command in common (60_exceptions.md R136). -/
theorem needsRate_load : needsRate 0x1 = false := rfl

/-- The status that the command of a legal word's row reports: UNCONFIG comes from the rate check alone, and BADFPS from
LOAD alone. -/
theorem exec_status_of_inRow {r : Request} {i : Instr} (hrow : InRow r i) (hc : legal r.cmd = true) (s : State) :
    ∃ t, exec i s = .next t ∧ t.status =
      if needsRate (opcode r.cmd) = true ∧ s.fps = 0 then .unconfig
      else if opcode r.cmd = 0x1 ∧ r.operands.fpsIn = 0 then .badFps
      else .ok := by
  cases hrow with
  | nop hop | rdub hop | wrub hop | rdcnt hop => exact ⟨_, rfl, by simp [hop, needsRate]⟩
  | load hop =>
    simp only [hop, needsRate_load, Bool.false_eq_true, false_and, if_false, true_and]
    exact execLoad_status_eq _ _ _ _ _ _ _ s
  | incr hop | decode hop | tobcd hop | rdflags hop =>
    simp only [hop, needsRate, true_or, or_true, decide_true, true_and]
    exact guardRate_status s _
  | rdrate hop =>
    obtain ⟨-, hsel⟩ := formatR_of_legal hc hop
    simp only [hop, needsRate, or_true, decide_true, true_and]
    rw [exec, execRdrate_eq hsel]
    exact guardRate_status s _

theorem perform_status (r : Request) (s : State) :
    ∃ t, perform r s = .next t ∧ t.status =
      if legal r.cmd = false then .illegal
      else if needsRate (opcode r.cmd) = true ∧ s.fps = 0 then .unconfig
      else if opcode r.cmd = 0x1 ∧ r.operands.fpsIn = 0 then .badFps
      else .ok := by
  by_cases hillegal : legal r.cmd = false
  · exact ⟨_, perform_illegal_word hillegal s, (if_pos hillegal).symm⟩
  · have hc : legal r.cmd = true := Bool.eq_true_of_not_eq_false hillegal
    obtain ⟨i, hrow⟩ := exists_inRow hc
    rw [perform_legal s (hrow.decodes hc), if_neg hillegal]
    exact exec_status_of_inRow hrow hc s

/-- Settles O24. -/
theorem statusOfEveryCommand : Obligations.StatusOfEveryCommand := by
  simp only [Obligations.StatusOfEveryCommand, ← needsRate_iff_mem]
  refine ⟨perform_status, fun c ⟨hneeds, hop⟩ => ?_, rfl, rfl, rfl, rfl, fun s => ?_⟩
  · rw [hop, needsRate_load] at hneeds
    exact Bool.false_ne_true hneeds
  · exact perform_illegal_word (r := ⟨0xC1, .zero⟩) (by decide) s

/-! ### A failed command -/

/-- A command that does not report OK has failed, so RES and STATUS are all it wrote (60_exceptions.md R132). -/
theorem CommandEffect.eq_finish_of_error {i : Instr} {s t : State} (heffect : CommandEffect i s t)
    (herror : t.status ≠ .ok) : t = s.finish t.status .zero := by
  cases heffect with
  | fails => rfl
  | reads | loads | counts | writesUserBits => exact absurd rfl herror

/-- Settles O25. -/
theorem failedCommandIsPrecise : Obligations.FailedCommandIsPrecise := by
  intro r s
  obtain ⟨t, i, ht, heffect⟩ := perform_effect r s
  exact ⟨t, ht, heffect.eq_finish_of_error⟩

end Sys2Proof.Machine
end

section
/-! PROOFS of family 70_reset_and_hazards: a reset during a flight, and the input ports while the core is busy
(70_reset_and_hazards.md R151, R155). -/

namespace Sys2Proof.Machine

/-- Outside a pulse of `rsp_valid` an idle edge changes no register at all. -/
theorem State.idle_eq_self {s : State} (hpulse : s.rspValid = false) : s.idle = s := by
  rw [State.idle, ← hpulse]

/-- A core with nothing in flight and no response pending stays as it is while the host presents nothing. -/
theorem clockEdges_quiet {s : State} (hidle : s.inFlight = none) (hpulse : s.rspValid = false) :
    ∀ ps : List PortsIn, (∀ q ∈ ps, q.rst = false ∧ q.cmdValid = false) → clockEdges ps s = .next s
  | [], _ => clockEdges_nil s
  | p :: ps, hquiet => by
    obtain ⟨⟨hrst, hvalid⟩, hps⟩ := List.forall_mem_cons.mp hquiet
    have hhold : clockEdge p s = .next s := by
      rw [clockEdge_idles hidle hrst (by simp [hvalid]), State.idle_eq_self hpulse]
    rw [clockEdges_cons ps hhold]
    exact clockEdges_quiet hidle hpulse ps hps

/-- Settles O18: the edge with `rst` takes the command out of flight, so no later quiet edge has anything to complete. -/
theorem resetDiscardsTheFlight : Obligations.ResetDiscardsTheFlight := by
  intro s _ p ps _ hrst hquiet
  calc clockEdges (p :: ps) s
      = clockEdges ps s.resetRegisters := clockEdges_cons ps (clockEdge_resets s hrst)
    _ = .next s.resetRegisters :=
      clockEdges_quiet s.resetRegisters_inFlight s.resetRegisters_rspValid ps hquiet

/-- Settles O23: an edge reads the inputs other than `rst` only to accept a command, which needs `cmd_ready`. -/
theorem inputsIgnoredWhileNotReady : Obligations.InputsIgnoredWhileNotReady := by
  intro p q s hbusy hagree
  cases hrst : q.rst with
  | true => rw [clockEdge_resets s (hagree.trans hrst), clockEdge_resets s hrst]
  | false =>
    cases hflight : s.inFlight with
    | some flight => rw [clockEdge_flight (hagree.trans hrst) hflight, clockEdge_flight hrst hflight]
    | none =>
      rw [clockEdge_idles hflight (hagree.trans hrst) (by simp [hbusy]),
        clockEdge_idles hflight hrst (by simp [hbusy])]

end Sys2Proof.Machine
end
